-- ==== Sys2Proof/Word.lean ====
section
/-! DEFINITION. The word types of the core (R9, R15, R62, R66). All values are unsigned (R16), and
bit `i` of a word `v` is `v.getLsbD i`, of weight `2 ^ i` (R15). -/

namespace Sys2Proof

/-- A byte: 8 bits, unsigned, 0 to 255 (R9). -/
abbrev Byte := BitVec 8

/-- A command word (R62). -/
abbrev Word32 := BitVec 32

/-- A response word (R66). -/
abbrev Word10 := BitVec 10

/-- A matrix: exactly 8 bytes, rows 0 to 7 (R9). Bit `j` of row `i` is 1 exactly when input bit `j`
is combined into output bit `i` (R23). -/
abbrev Mat := Vector Byte 8

/-- A SubstitutionTable or an InverseTable: exactly 256 bytes, indexed by a byte (R9, R41). -/
abbrev Table := Vector Byte 256

end Sys2Proof
end

