-- ==== Sys2Proof/Syntax.lean ====
section
/-! DEFINITION. The commands of the core, one constructor per row of the opcode map (R65). Each
operand has the width of its field (R63): `a` and `b` are bytes, `row` a 3-bit row index. -/

namespace Sys2Proof

/-- The 14 commands (R65). -/
inductive Instr where
  /-- OP 0x00, no operation (R180). -/
  | nop
  /-- OP 0x01, GF(2^8) multiply (R105). -/
  | gmul (a b : Byte)
  /-- OP 0x02, multiplicative inverse (R106). -/
  | ginv (a : Byte)
  /-- OP 0x03, apply the staged affine transform (R128). -/
  | affine (a : Byte)
  /-- OP 0x04, one S-box entry from the staging registers (R148). -/
  | sbent (a : Byte)
  /-- OP 0x05, write one matrix row (R124). -/
  | wrmat (row : Fin 8) (a : Byte)
  /-- OP 0x06, read one matrix row (R125). -/
  | rdmat (row : Fin 8)
  /-- OP 0x07, write the affine constant (R126). -/
  | wrconst (a : Byte)
  /-- OP 0x08, read the affine constant (R127). -/
  | rdconst
  /-- OP 0x09, build a table pair from the staging registers and make it active (R149). -/
  | build
  /-- OP 0x0A, build the default table pair and make it active (R151). -/
  | init
  /-- OP 0x0B, forward substitution of one byte (R163). -/
  | sub (a : Byte)
  /-- OP 0x0C, inverse substitution of one byte (R165). -/
  | invsub (a : Byte)
  /-- OP 0x0D, read the STATUS register (R181). -/
  | rdstat
  deriving DecidableEq, Repr

/-- The mnemonic of a command, as the opcode map spells it (R65). -/
def Instr.mnemonic : Instr → String
  | .nop => "NOP"
  | .gmul _ _ => "GMUL"
  | .ginv _ => "GINV"
  | .affine _ => "AFFINE"
  | .sbent _ => "SBENT"
  | .wrmat _ _ => "WRMAT"
  | .rdmat _ => "RDMAT"
  | .wrconst _ => "WRCONST"
  | .rdconst => "RDCONST"
  | .build => "BUILD"
  | .init => "INIT"
  | .sub _ => "SUB"
  | .invsub _ => "INVSUB"
  | .rdstat => "RDSTAT"

end Sys2Proof
end

