-- ==== Sys2Proof/WellFormed.lean ====
section
/-! DEFINITION. What is well formed. A term of `Instr` cannot be ill formed: its operands have the
widths of their fields (R63). The checks are therefore about what stands before decoding: a command
WORD, legal exactly when it matches a row of the opcode map (R65), and the operand NUMBERS of an
assembler line, which must lie in range (R71). -/

namespace Sys2Proof

/-- One row of the opcode map (R65): the words of a command are those with `word &&& mask = pattern`. -/
structure OpcodeRow where
  mnemonic : String
  pattern : Word32
  mask : Word32
  deriving DecidableEq, Repr

/-- The opcode map, row for row (R65; the columns "mnemonic", "match" and "mask"). -/
def opcodeMap : List OpcodeRow :=
  [ ⟨"NOP", 0x00000000, 0xFFFFFFFF⟩,
    ⟨"GMUL", 0x01000000, 0xFFFF0000⟩,
    ⟨"GINV", 0x02000000, 0xFFFFFF00⟩,
    ⟨"AFFINE", 0x03000000, 0xFFFFFF00⟩,
    ⟨"SBENT", 0x04000000, 0xFFFFFF00⟩,
    ⟨"WRMAT", 0x05000000, 0xFFF8FF00⟩,
    ⟨"RDMAT", 0x06000000, 0xFFF8FFFF⟩,
    ⟨"WRCONST", 0x07000000, 0xFFFFFF00⟩,
    ⟨"RDCONST", 0x08000000, 0xFFFFFFFF⟩,
    ⟨"BUILD", 0x09000000, 0xFFFFFFFF⟩,
    ⟨"INIT", 0x0A000000, 0xFFFFFFFF⟩,
    ⟨"SUB", 0x0B000000, 0xFFFFFF00⟩,
    ⟨"INVSUB", 0x0C000000, 0xFFFFFF00⟩,
    ⟨"RDSTAT", 0x0D000000, 0xFFFFFFFF⟩ ]

/-- Does the word match the row? -/
def OpcodeRow.accepts (r : OpcodeRow) (w : Word32) : Bool :=
  w &&& r.mask == r.pattern

/-- "Each command is legal exactly when `(cmd and mask) = match`" (R65). -/
def legalWord (w : Word32) : Bool :=
  opcodeMap.any fun r => r.accepts w

/-- A byte operand "must lie in 0..255" (R71). -/
def byteInRange (n : Nat) : Bool := n ≤ 255

/-- A row operand is "a decimal number 0..7" (R71). -/
def rowInRange (n : Nat) : Bool := n ≤ 7

end Sys2Proof
end

