-- ==== Sys2Proof/Decode.lean ====
section
/-! DEFINITION. The decoder (R63, R68), the causes by which it rejects a word (R202), and after them
the encoder (R71). A command is one 32-bit word, parallel, with no byte order (R43, R62). -/

namespace Sys2Proof

/-- Why a word is illegal (R202). -/
inductive IllegalCause where
  /-- OP is above 0x0D. -/
  | undefinedOpcode
  /-- OP is defined, and RSV or an unused field is not zero. -/
  | reservedField
  deriving DecidableEq, Repr

/-- The cause code an ILLEGAL response carries in DATA (R202). -/
def IllegalCause.code : IllegalCause → Byte
  | .undefinedOpcode => 0x01
  | .reservedField => 0x02

/-! ## Fields (R62, R63) -/

/-- OP, bits 31:24. -/
def opField (w : Word32) : Byte := w.extractLsb' 24 8

/-- ROW, bits 18:16, as a row index. -/
def rowField (w : Word32) : Fin 8 := (w.extractLsb' 16 3).toFin

/-- B, bits 15:8. -/
def bField (w : Word32) : Byte := w.extractLsb' 8 8

/-- A, bits 7:0. -/
def aField (w : Word32) : Byte := w.extractLsb' 0 8

/-! ## The decoder -/

/-- The command of a row when the word has the row's fixed bits, and RESERVED_FIELD otherwise: the
second test of R68. -/
def checkFields (w mask pattern : Word32) (i : Instr) : Except IllegalCause Instr :=
  if w &&& mask = pattern then .ok i else .error .reservedField

/-- R68. Total: every word is one command or is rejected with a cause. The opcode is tested first, so
UNDEFINED_OPCODE takes priority (R203). -/
def decode (w : Word32) : Except IllegalCause Instr :=
  match (opField w).toNat with
  | 0x00 => checkFields w 0xFFFFFFFF 0x00000000 .nop
  | 0x01 => checkFields w 0xFFFF0000 0x01000000 (.gmul (aField w) (bField w))
  | 0x02 => checkFields w 0xFFFFFF00 0x02000000 (.ginv (aField w))
  | 0x03 => checkFields w 0xFFFFFF00 0x03000000 (.affine (aField w))
  | 0x04 => checkFields w 0xFFFFFF00 0x04000000 (.sbent (aField w))
  | 0x05 => checkFields w 0xFFF8FF00 0x05000000 (.wrmat (rowField w) (aField w))
  | 0x06 => checkFields w 0xFFF8FFFF 0x06000000 (.rdmat (rowField w))
  | 0x07 => checkFields w 0xFFFFFF00 0x07000000 (.wrconst (aField w))
  | 0x08 => checkFields w 0xFFFFFFFF 0x08000000 .rdconst
  | 0x09 => checkFields w 0xFFFFFFFF 0x09000000 .build
  | 0x0A => checkFields w 0xFFFFFFFF 0x0A000000 .init
  | 0x0B => checkFields w 0xFFFFFF00 0x0B000000 (.sub (aField w))
  | 0x0C => checkFields w 0xFFFFFF00 0x0C000000 (.invsub (aField w))
  | 0x0D => checkFields w 0xFFFFFFFF 0x0D000000 .rdstat
  | _ => .error .undefinedOpcode

/-! ## The encoder -/

/-- The command word with the given fields, and RSV zero: the drawing of R62. -/
def packWord (op : Byte) (row : Fin 8) (b a : Byte) : Word32 :=
  op ++ 0#5 ++ BitVec.ofFin (w := 3) row ++ b ++ a

/-- The word of a command, "with every unused field 0" (R71). -/
def encode : Instr → Word32
  | .nop => packWord 0x00 0 0 0
  | .gmul a b => packWord 0x01 0 b a
  | .ginv a => packWord 0x02 0 0 a
  | .affine a => packWord 0x03 0 0 a
  | .sbent a => packWord 0x04 0 0 a
  | .wrmat row a => packWord 0x05 row 0 a
  | .rdmat row => packWord 0x06 row 0 0
  | .wrconst a => packWord 0x07 0 0 a
  | .rdconst => packWord 0x08 0 0 0
  | .build => packWord 0x09 0 0 0
  | .init => packWord 0x0A 0 0 0
  | .sub a => packWord 0x0B 0 0 a
  | .invsub a => packWord 0x0C 0 0 a
  | .rdstat => packWord 0x0D 0 0 0

/-! ## The opcode table's numbering of bits -/

/-- The command word whose low `nbits` bits are those of `w`, and whose bits above them are zero. -/
def tableWord (nbits w : Nat) : Word32 := BitVec.ofNat 32 (w % 2 ^ nbits)

/-- What the decoder reads from a word numbered as the opcode table numbers it: bit 0 is the least
significant bit of the one command word. `none` where the decoder rejects it. -/
def decodeTableWord (nbits w : Nat) : Option Instr :=
  match decode (tableWord nbits w) with
  | .ok i => some i
  | .error _ => none

end Sys2Proof
end

