-- ==== Sys2Proof/Machine/Affine.lean ====
section
/-! DEFINITION. The affine transform (R120). Output bit `i` has weight `2 ^ i` (R15, R121). Pure and
total (R19). -/

namespace Sys2Proof.Machine

/-- The inner loop of R120: the XOR over `j` of `row[j] and x[j]`. -/
def rowParity (row x : Byte) : Bool :=
  (List.range 8).foldl (fun p j => p ^^ (row.getLsbD j && x.getLsbD j)) false

/-- The outer loop of R120: the byte whose bit `i` is the parity of row `i` with `x`. -/
def linear (m : Mat) (x : Byte) : Byte :=
  (List.finRange 8).foldl
    (fun r i => r ||| ((BitVec.ofBool (rowParity m[i] x)).setWidth 8 <<< i.val)) 0x00

/-- The affine transform of `x` by the matrix `m` and the constant `c` (R120). -/
def affine (x : Byte) (m : Mat) (c : Byte) : Byte := linear m x ^^^ c

/-- The identity matrix (R122). -/
def identityMat : Mat := #v[0x01, 0x02, 0x04, 0x08, 0x10, 0x20, 0x40, 0x80]

end Sys2Proof.Machine
end

