-- ==== Sys2Proof/Machine/Field.lean ====
section
/-! DEFINITION. Field arithmetic in GF(2^8): the multiplier (R100) and the inverse lookup (R103).
Pure and total (R19). Addition in the field is `^^^` (R16). -/

namespace Sys2Proof.Machine

/-- The reduction polynomial x^8 + x^4 + x^3 + x + 1 (R14). Fixed, not a parameter. -/
def reductionPoly : BitVec 9 := 0x11B

/-- One reduction step of R100: shift left as a 9-bit intermediate, XOR with 0x11B if the bit shifted
out of position 7 was set, then truncate to 8 bits. -/
def xtime (x : Byte) : Byte :=
  let hi := x.getLsbD 7
  let wide : BitVec 9 := x.setWidth 9 <<< 1
  let reduced := bif hi then wide ^^^ reductionPoly else wide
  reduced.setWidth 8

/-- The loop of R100, with its number of iterations left to run. The accumulator takes the value of
`x` before the shift. -/
def gmulLoop : Nat → Byte → Byte → Byte → Byte
  | 0, acc, _, _ => acc
  | n + 1, acc, x, y => gmulLoop n (bif y.getLsbD 0 then acc ^^^ x else acc) (xtime x) (y >>> 1)

/-- The product in GF(2^8) (R100). -/
def gmul (a b : Byte) : Byte := gmulLoop 8 0x00 a b

/-- The byte values 0 to 255 in ascending order: the range of the spec's loops (R17). -/
def allBytes : List Byte := (List.range 256).map (BitVec.ofNat 8)

/-- The multiplicative inverse, with `ginv 0 = 0` (R103): the first `i` with `gmul x i = 1`, and 0 if
there were none (never reached, R104). -/
def ginv (x : Byte) : Byte :=
  if x = 0x00 then 0x00
  else (allBytes.find? fun i => gmul x i == 0x01).getD 0x00

end Sys2Proof.Machine
end

