-- ==== Sys2Proof/Machine/Tables.lean ====
section
/-! DEFINITION. Tables: reading and writing one entry, and the two table generators, `generate_sbox`
(R140) and `generate_inverse` (R142). Pure and total (R19). -/

namespace Sys2Proof.Machine

/-- Entry `a` of a table (R18). Every index names an entry (R42). -/
def tableRead (t : Table) (a : Byte) : Byte := t[a.toNat]'a.isLt

/-- The table with entry `a` replaced. Used only to build a table; no command writes one entry of an
active table (R25). -/
def tableWrite (t : Table) (a v : Byte) : Table := t.set a.toNat v a.isLt

/-- R140: entry `x` is `affine(ginv(x), M, c)`. -/
def generateSbox (m : Mat) (c : Byte) : Table :=
  Vector.ofFn fun x => affine (ginv (BitVec.ofNat 8 x.val)) m c

/-- R142: start from the sentinel 0 everywhere, then for each `i` in ascending order set
`U[T[i]] <- i`. So the last index wins (R143). -/
def generateInverse (t : Table) : Table :=
  allBytes.foldl (fun u i => tableWrite u (tableRead t i) i) (Vector.replicate 256 0x00)

end Sys2Proof.Machine
end

