-- ==== Sys2Proof/Config.lean ====
section
/-! DEFINITION. The implementation parameters of the core (R9 to R13), and its free values. An
`opaque` constant here has no body: nothing can evaluate it or prove its value, so a claim about the
model holds for every value of it. -/

namespace Sys2Proof

open Sys2Proof.Machine

/-- Is the matrix invertible over GF(2)? Tested as: no byte but 0 is mapped to 0 by the matrix.
DEDUCED (log 1): for a square matrix over a field this is invertibility. -/
def Config.invertible (m : Mat) : Bool :=
  allBytes.all fun x => x == 0x00 || linear m x != 0x00

/-- FREE VALUE (log 1): the implementation's choice of the built-in default matrix, before R10's
constraint. -/
opaque Config.matrixChoice : Mat

/-- `DEFAULT_MATRIX` (R10): open, and invertible over GF(2). The implementation's choice where it is
invertible; a choice that is not invertible is no core of this spec, and the identity stands in for
it. Every invertible matrix remains possible. -/
def Config.defaultMatrix : Mat :=
  if Config.invertible Config.matrixChoice then Config.matrixChoice else identityMat

/-- `DEFAULT_CONSTANT` (R11): 0x63, kept as a named field (log 2). -/
def Config.defaultConstant : Byte := 0x63

/-- `RESET_AUTO_INIT` (R12): does the core build the default pair at the end of reset? "Its default is
`true`" (R12). Whatever depends on the parameter also stands for a given value of it
(`State.resetWith`, `completeResetWith`, `clockEdgeWith`), so claims can be made of either core
(log 3). -/
def Config.resetAutoInit : Bool := true

/-- FREE VALUE (log 4): by how many cycles the latency of an opcode exceeds 1. -/
opaque Config.latencyAboveOne : Byte → Nat

/-- `LAT` (R13): cycles from the acceptance of a command with this opcode to its response, at least
1. "No functional rule of this spec depends on it" (R13), and no definition of the model reads it:
the model carries no time (R248). -/
def Config.lat (op : Byte) : Nat := Config.latencyAboveOne op + 1

/-- FREE VALUE (log 5): what SBOX holds after the `n`-th assertion of reset, until a pair is built
(R29, R241). -/
opaque Config.sboxInReset : Nat → Table

/-- FREE VALUE (log 5): what INVSBOX holds after the `n`-th assertion of reset, until a pair is built
(R29, R241). -/
opaque Config.invsboxInReset : Nat → Table

end Sys2Proof
end

