-- ==== Sys2Proof/Machine/State.lean ====
section
/-! DEFINITION. The state of the core and of its two ports, the ways a step can stop, and the state
right after reset (10_state.md). -/

namespace Sys2Proof.Machine

/-- The command and response ports (R60, R61), as the core drives them. -/
inductive Port where
  /-- `rst` was 1 at the last rising edge: `cmd_ready = 0`, `rsp_valid = 0` (R240), and the reset
  sequence has not run (R242). -/
  | inReset
  /-- `cmd_ready = 1`, `rsp_valid = 0`: no command is outstanding (R243). -/
  | ready
  /-- One command is outstanding: `cmd_ready = 0`, `rsp_valid = 1`, and `rsp_data` is `rsp` (R61). -/
  | responding (rsp : Word10)
  deriving DecidableEq, Repr

/-- One thing the host does at the ports (R60, R250). -/
inductive HostAction where
  /-- Offer the word: `cmd_valid = 1` and `cmd_data = w`, held until the core accepts it (R61). -/
  | command (w : Word32)
  /-- Take one response: `rsp_ready = 1`, held until the core has offered one (R61). -/
  | take
  /-- Hold `rst = 1` for one rising edge (R240). -/
  | reset
  deriving DecidableEq, Repr

/-- The state. The first five fields are the architectural state, "exactly the fields listed" in
10_state.md; `port` is what the core drives on its ports; the last three are the model's own. -/
structure State where
  /-- MAT[0..7], the staging matrix rows (R22). -/
  mat : Mat
  /-- CONST, the staging constant (R24). -/
  const : Byte
  /-- SBOX, the active substitution table (R25). -/
  sbox : Table
  /-- INVSBOX, the active inverse table (R26). -/
  invsbox : Table
  /-- VALID, an active pair is present (R27). -/
  valid : Bool
  /-- The ports (R60, R61, R240, R243). -/
  port : Port
  /-- What the host does next, in order (R249, R250; log 7). -/
  host : List HostAction
  /-- The responses the host has taken, oldest first: the observation of a run (R249; log 7). -/
  taken : List Word10
  /-- How many free values have been used (log 5). -/
  fresh : Nat
  deriving DecidableEq, Repr

/-- Why a step stops with a fault. No constructor: the core has no fault. "No legal command can fail"
(R200), and an illegal command word is answered by a response (R201). Nobody raises one (log 18). -/
inductive Fault
  deriving DecidableEq, Repr

/-- Why an instruction is refused. -/
inductive Refusal where
  /-- An instruction with no meaning yet, rejected by name in `exec`'s arm. Raised by no arm of this
  model. Safe: the model would stop where the hardware goes on. -/
  | notModelled (mnemonic : String)
  deriving DecidableEq, Repr

/-- The state "at the moment `cmd_ready` first rises" after reset (10_state.md section 6, R243), for a
given value of RESET_AUTO_INIT. Without it, VALID is 0 and the tables are unspecified (R29, R242). -/
def State.resetWith (autoInit : Bool) : State where
  mat := Config.defaultMatrix
  const := Config.defaultConstant
  sbox :=
    if autoInit then generateSbox Config.defaultMatrix Config.defaultConstant
    else Config.sboxInReset 0
  invsbox :=
    if autoInit then
      generateInverse (generateSbox Config.defaultMatrix Config.defaultConstant)
    else Config.invsboxInReset 0
  valid := autoInit
  port := .ready
  host := []
  taken := []
  fresh := 1

/-- The machine right after reset, with RESET_AUTO_INIT at its default (R12): VALID is 1. -/
def State.reset : State := State.resetWith Config.resetAutoInit

end Sys2Proof.Machine
end

