-- ==== Sys2Proof/Machine/Flags.lean ====
section
/-! DEFINITION. The one flag, VALID (R27), and the STATUS register, a view of it (R31). The core has
no arithmetic flags (R32). -/

namespace Sys2Proof.Machine

/-- `VALID <- b` (R18). -/
def writeValid (b : Bool) (s : State) : State := { s with valid := b }

/-- STATUS (R31): bit 0 is VALID, bits 7:1 are hardwired 0. No storage of its own. -/
def statusView (s : State) : Byte := 0#7 ++ BitVec.ofBool s.valid

end Sys2Proof.Machine
end

