-- ==== Sys2Proof/Machine/Operands.lean ====
section
/-! DEFINITION. The operand forms: the primitives that reach a register or a table by its index
(R18, R41). There is one addressing form, a direct index from a field of the command word; every
index is valid (R42). -/

namespace Sys2Proof.Machine

/-- `MAT[r]` (R18). -/
def readMat (row : Fin 8) (s : State) : Byte := s.mat[row]

/-- `MAT[r] <- v` (R18). The other rows keep their values (R124). -/
def writeMat (row : Fin 8) (v : Byte) (s : State) : State := { s with mat := s.mat.set row v }

/-- `CONST` (R18). -/
def readConst (s : State) : Byte := s.const

/-- `CONST <- v` (R18). -/
def writeConst (v : Byte) (s : State) : State := { s with const := v }

/-- `TableRead(SBOX, a)` (R18). -/
def readSbox (a : Byte) (s : State) : Byte := tableRead s.sbox a

/-- `TableRead(INVSBOX, a)` (R18). -/
def readInvsbox (a : Byte) (s : State) : Byte := tableRead s.invsbox a

end Sys2Proof.Machine
end

