-- ==== Sys2Proof/Machine/Ops.lean ====
section
/-! DEFINITION. The shared operations: the response of a command (R66), the ILLEGAL response, which is
the core's one exceptional outcome (R201), the atomic replacement of the table pair (R46), the
emergency initialisation (R161), taking a response (R61), and reset (R240, R242). -/

namespace Sys2Proof.Machine

/-! ## Responses -/

/-- The status codes that the core produces (R67). -/
inductive Status where
  | ok
  | illegal
  deriving DecidableEq, Repr

/-- ST (R67). The codes 0b10 and 0b11 are never produced. -/
def Status.code : Status → BitVec 2
  | .ok => 0b00
  | .illegal => 0b01

/-- The response word `{ST, DATA}` (R66). -/
def respWord (st : Status) (data : Byte) : Word10 := st.code ++ data

/-- `respond(st, data)` (R18, R66): the command's response is offered on the response port. -/
def respond (st : Status) (data : Byte) (s : State) : State :=
  { s with port := .responding (respWord st data) }

/-- `raise Illegal(k)` (R18, R201): "respond(ILLEGAL, k) with no state change". Nothing is saved, no
mode changes, no fault bit is kept (R205); the next command is accepted as usual. -/
def raiseIllegal (cause : IllegalCause) (s : State) : State := respond .illegal cause.code s

/-! ## The active pair -/

/-- `(SBOX, INVSBOX) <- (T, generate_inverse(T))` (R46), the only write of the tables but reset. -/
def replaceTables (t : Table) (s : State) : State :=
  { s with sbox := t, invsbox := generateInverse t }

/-- Build a pair from a matrix and a constant, make it active, and set VALID (R149, R151, R161). -/
def activate (m : Mat) (c : Byte) (s : State) : State :=
  writeValid true (replaceTables (generateSbox m c) s)

/-- Build the default pair and make it active: the source's `initialize` (R151). MAT and CONST are
neither read nor written (R152). -/
def activateDefault (s : State) : State :=
  activate Config.defaultMatrix Config.defaultConstant s

/-- `ensure_initialized()` (R161). -/
def ensureInitialized (s : State) : State :=
  if s.valid then s else activateDefault s

/-! ## The ports -/

/-- The host takes the response (R61): the port is ready for the next command. -/
def takeResponse (rsp : Word10) (s : State) : State :=
  { s with port := .ready, taken := s.taken ++ [rsp] }

/-- A rising edge with `rst = 1` (R240). An outstanding command is abandoned, with no response:
`taken` keeps its value. DESIGN CHOICE (log 21): the model's host does not drive `rsp_ready` at such
an edge. The tables hold unspecified values from here on (R241). -/
def assertReset (s : State) : State :=
  { s with
    mat := Config.defaultMatrix
    const := Config.defaultConstant
    sbox := Config.sboxInReset s.fresh
    invsbox := Config.invsboxInReset s.fresh
    valid := false
    port := .inReset
    fresh := s.fresh + 1 }

/-- The reset sequence, for a given value of RESET_AUTO_INIT (R242), after which `cmd_ready` rises
with no response pending (R243). -/
def completeResetWith (autoInit : Bool) (s : State) : State :=
  let s := if autoInit then activateDefault s else s
  { s with port := .ready }

end Sys2Proof.Machine
end

