-- ==== Sys2Proof/Machine/Arithmetic.lean ====
section
/-! DEFINITION. The field arithmetic commands: GMUL (R105), GINV (R106). -/

namespace Sys2Proof.Machine

/-- GMUL a, b (R105): `respond(OK, gmul(a, b))`. -/
def execGmul (a b : Byte) (s : State) : Host.Outcome State Fault Refusal :=
  .next (respond .ok (gmul a b) s)

/-- GINV a (R106): `respond(OK, ginv(a))`. -/
def execGinv (a : Byte) (s : State) : Host.Outcome State Fault Refusal :=
  .next (respond .ok (ginv a) s)

end Sys2Proof.Machine
end

