-- ==== Sys2Proof/Machine/Codec.lean ====
section
/-! DEFINITION. The substitution codec's commands: SUB (R163), INVSUB (R165). Each looks up one byte
and carries nothing to the next (R160). -/

namespace Sys2Proof.Machine

/-- SUB a (R163): `ensure_initialized() ; respond(OK, TableRead(SBOX, a))`. -/
def execSub (a : Byte) (s : State) : Host.Outcome State Fault Refusal :=
  let s := ensureInitialized s
  .next (respond .ok (readSbox a s) s)

/-- INVSUB a (R165): `ensure_initialized() ; respond(OK, TableRead(INVSBOX, a))`. -/
def execInvsub (a : Byte) (s : State) : Host.Outcome State Fault Refusal :=
  let s := ensureInitialized s
  .next (respond .ok (readInvsbox a s) s)

end Sys2Proof.Machine
end

