-- ==== Sys2Proof/Machine/Control.lean ====
section
/-! DEFINITION. The control commands: NOP (R180), RDSTAT (R181). Neither runs the emergency
initialisation. -/

namespace Sys2Proof.Machine

/-- NOP (R180): `respond(OK, 0x00)`. -/
def execNop (s : State) : Host.Outcome State Fault Refusal :=
  .next (respond .ok 0x00 s)

/-- RDSTAT (R181): `respond(OK, STATUS)`. -/
def execRdstat (s : State) : Host.Outcome State Fault Refusal :=
  .next (respond .ok (statusView s) s)

end Sys2Proof.Machine
end

