-- ==== Sys2Proof/Machine/Staging.lean ====
section
/-! DEFINITION. The affine engine's commands: AFFINE (R128) and the staging registers' WRMAT (R124),
RDMAT (R125), WRCONST (R126), RDCONST (R127). -/

namespace Sys2Proof.Machine

/-- AFFINE a (R128): `respond(OK, affine(a, MAT, CONST))`. -/
def execAffine (a : Byte) (s : State) : Host.Outcome State Fault Refusal :=
  .next (respond .ok (affine a s.mat (readConst s)) s)

/-- WRMAT row, a (R124): `MAT[row] <- a ; respond(OK, 0x00)`. -/
def execWrmat (row : Fin 8) (a : Byte) (s : State) : Host.Outcome State Fault Refusal :=
  .next (respond .ok 0x00 (writeMat row a s))

/-- RDMAT row (R125): `respond(OK, MAT[row])`. -/
def execRdmat (row : Fin 8) (s : State) : Host.Outcome State Fault Refusal :=
  .next (respond .ok (readMat row s) s)

/-- WRCONST a (R126): `CONST <- a ; respond(OK, 0x00)`. -/
def execWrconst (a : Byte) (s : State) : Host.Outcome State Fault Refusal :=
  .next (respond .ok 0x00 (writeConst a s))

/-- RDCONST (R127): `respond(OK, CONST)`. -/
def execRdconst (s : State) : Host.Outcome State Fault Refusal :=
  .next (respond .ok (readConst s) s)

end Sys2Proof.Machine
end

