-- ==== Sys2Proof/Machine/TableBuilder.lean ====
section
/-! DEFINITION. The table builder's commands: SBENT (R148), BUILD (R149), INIT (R151). No bijectivity
check is made (R150). -/

namespace Sys2Proof.Machine

/-- SBENT a (R148): `respond(OK, affine(ginv(a), MAT, CONST))`. -/
def execSbent (a : Byte) (s : State) : Host.Outcome State Fault Refusal :=
  .next (respond .ok (affine (ginv a) s.mat (readConst s)) s)

/-- BUILD (R149): the pair of MAT and CONST becomes active, VALID is set. -/
def execBuild (s : State) : Host.Outcome State Fault Refusal :=
  .next (respond .ok 0x00 (activate s.mat (readConst s) s))

/-- INIT (R151): the default pair becomes active, VALID is set. -/
def execInit (s : State) : Host.Outcome State Fault Refusal :=
  .next (respond .ok 0x00 (activateDefault s))

end Sys2Proof.Machine
end

