-- ==== Sys2Proof/Machine/Dispatch.lean ====
section
/-! DEFINITION. The dispatch of a decoded command to its meaning, one arm per command. -/

namespace Sys2Proof.Machine

def exec (i : Instr) (s : State) : Host.Outcome State Fault Refusal :=
  match i with
  | .nop => Sys2Proof.Machine.execNop s
  | .gmul a b => Sys2Proof.Machine.execGmul a b s
  | .ginv a => Sys2Proof.Machine.execGinv a s
  | .affine a => Sys2Proof.Machine.execAffine a s
  | .sbent a => Sys2Proof.Machine.execSbent a s
  | .wrmat row a => Sys2Proof.Machine.execWrmat row a s
  | .rdmat row => Sys2Proof.Machine.execRdmat row s
  | .wrconst a => Sys2Proof.Machine.execWrconst a s
  | .rdconst => Sys2Proof.Machine.execRdconst s
  | .build => Sys2Proof.Machine.execBuild s
  | .init => Sys2Proof.Machine.execInit s
  | .sub a => Sys2Proof.Machine.execSub a s
  | .invsub a => Sys2Proof.Machine.execInvsub a s
  | .rdstat => Sys2Proof.Machine.execRdstat s

end Sys2Proof.Machine
end

