-- ==== Sys2Proof/Machine/Execute.lean ====
section
/-! DEFINITION. Executing one command word, the ports as signals (R60), one rising edge of `clk`
(R61, R240, R242), and a run of command words (R249). -/

namespace Sys2Proof.Machine

/-- One accepted command word, decoded and executed in one atomic step (R61, R68): an illegal word is
answered by `raise Illegal(k)` (R201). -/
def executeWord (w : Word32) (s : State) : Host.Outcome State Fault Refusal :=
  match decode w with
  | .ok i => exec i s
  | .error cause => .next (raiseIllegal cause s)

/-! ## The ports as signals (R60) -/

/-- `cmd_ready`. -/
def cmdReady (s : State) : Bool := s.port == .ready

/-- `rsp_valid` and `rsp_data`: `some r` when `rsp_valid = 1` and `rsp_data = r`. The spec gives
`rsp_data` no value while `rsp_valid = 0` (log 8). -/
def rspOffered (s : State) : Option Word10 :=
  match s.port with
  | .responding r => some r
  | _ => none

/-- `cmd_valid` and `cmd_data`: `some w` when `cmd_valid = 1` and `cmd_data = w`. -/
def cmdOffered (s : State) : Option Word32 :=
  match s.host with
  | .command w :: _ => some w
  | _ => none

/-- `rsp_ready`. -/
def rspReady (s : State) : Bool := s.host.head? == some .take

/-- `rst`. -/
def rst (s : State) : Bool := s.host.head? == some .reset

/-! ## One rising edge -/

/-- One rising edge of `clk` (log 8), for a given value of RESET_AUTO_INIT. With `rst = 1` the core is
reset, whatever it was doing (R240). Otherwise, after a reset, it runs its reset sequence (R242).
Otherwise a command is accepted where `cmd_valid = 1` and `cmd_ready = 1`, or a response is taken
where `rsp_valid = 1` and `rsp_ready = 1` (R61). At any other edge nothing happens.

DESIGN CHOICE (log 21): R61's rule for taking a response has no condition `rst = 0`, and R240 says that
the abandoned command gets no response. The spec does not settle an edge with `rst = 1`,
`rsp_valid = 1` and `rsp_ready = 1`. The model's host drives one of `rst` and `rsp_ready` at an edge,
never both, and an edge with `rst = 1` takes no response. -/
def clockEdgeWith (autoInit : Bool) (s : State) : Host.Outcome State Fault Refusal :=
  match s.host, s.port with
  | .reset :: rest, _ => .next (assertReset { s with host := rest })
  | _, .inReset => .next (completeResetWith autoInit s)
  | .command w :: rest, .ready => executeWord w { s with host := rest }
  | .take :: rest, .responding r => .next (takeResponse r { s with host := rest })
  | _, _ => .next s

/-- One rising edge of `clk`, with RESET_AUTO_INIT at its default (R12, log 3). -/
def clockEdge (s : State) : Host.Outcome State Fault Refusal :=
  clockEdgeWith Config.resetAutoInit s

/-! ## A run (R249) -/

/-- One command word at transaction level: executed, and its response taken. -/
def transact (w : Word32) (s : State) : Host.Outcome State Fault Refusal :=
  match executeWord w s with
  | .next t =>
    match t.port with
    | .responding r => .next (takeResponse r t)
    | _ => .next t
  | .fault f => .fault f
  | .refused r => .refused r

/-- A run: command words executed one after another, each response taken into `taken` (R249). -/
def runWords : List Word32 → State → Host.Outcome State Fault Refusal
  | [], s => .next s
  | w :: ws, s =>
    match transact w s with
    | .next t => runWords ws t
    | .fault f => .fault f
    | .refused r => .refused r

/-- What a host does to run the words through the ports: it offers each and takes its response before
it offers the next (R250). -/
def offerAndTake : List Word32 → List HostAction
  | [] => []
  | w :: ws => .command w :: .take :: offerAndTake ws

end Sys2Proof.Machine
end

