-- ==== Sys2Proof/Machine/Step.lean ====
section
/-! DEFINITION. The step of the machine, one rising edge of `clk`, and the placing of a command where
the next step executes it. -/

namespace Sys2Proof.Machine

/-- One step: one rising edge of `clk`. -/
def step (s : State) : Host.Outcome State Fault Refusal :=
  Sys2Proof.Machine.clockEdge s

/-- `s` with the command word `w`, numbered as the opcode table numbers its bits, offered on the
command port, and the port ready to accept it at the next edge. The core fetches nothing (R21): its
host presents each command (log 7). -/
def State.withFetchWord (s : State) (nbits w : Nat) : State :=
  { s with port := .ready, host := .command (tableWord nbits w) :: s.host }

end Sys2Proof.Machine
end

