-- ==== Sys2Proof/Machine/Assembler.lean ====
section
/-! DEFINITION. The assembler notation: the pseudo-instructions (R72, R73, R74) and the syntax of a
line (R71). It has no behaviour of its own: it names lists of commands. Log 17 says what the spec
leaves open about the text. -/

namespace Sys2Proof.Machine

/-! ## Pseudo-instructions -/

/-- `LDMAT m0, …, m7, c` (R72): nine commands. -/
def ldmat (m : Mat) (c : Byte) : List Instr :=
  ((List.finRange 8).map fun r => .wrmat r m[r]) ++ [.wrconst c]

/-- `SUBSEQ d0, …` (R74). -/
def subseq (d : List Byte) : List Instr := d.map .sub

/-- `INVSUBSEQ d0, …` (R74). -/
def invsubseq (d : List Byte) : List Instr := d.map .invsub

/-- `BUILDTABLE m0, …, m7, c` (R73): LDMAT, BUILD, then SUB of 0x00 to 0xFF. -/
def buildtable (m : Mat) (c : Byte) : List Instr :=
  ldmat m c ++ [.build] ++ (List.range 256).map fun x => .sub (BitVec.ofNat 8 x)

/-! ## Numbers -/

/-- An operand as written: its value, and whether it was written in hexadecimal. -/
structure Operand where
  value : Nat
  isHex : Bool
  deriving DecidableEq, Repr

/-- The digits of hexadecimal in the order of their values; the first ten are those of decimal. -/
def digitChars : List Char := "0123456789ABCDEF".toList

/-- The value of a digit of the base: its place among the base's digits. A hexadecimal digit may be of
either case (log 17). -/
def digitOf (base : Nat) (c : Char) : Option Nat := (digitChars.take base).idxOf? c.toUpper

/-- The number that the digits write in the base, the most significant first. -/
def numeral (base : Nat) (digits : List Char) : Option Nat :=
  (digits.mapM (digitOf base)).map fun ds => ds.foldl (fun n d => base * n + d) 0

/-- "A byte operand is written in hexadecimal (`0x53`) or decimal (`83`)" (R71). -/
def parseOperand : List Char → Option Operand
  | [] => none
  | '0' :: 'x' :: [] => none
  | '0' :: 'x' :: digits => (numeral 16 digits).map fun n => ⟨n, true⟩
  | digits => (numeral 10 digits).map fun n => ⟨n, false⟩

/-- A byte operand "must lie in 0..255"; out of range it is rejected, never wrapped (R71). -/
def byteOperand (o : Operand) : Option Byte :=
  if byteInRange o.value then some (BitVec.ofNat 8 o.value) else none

/-- "A row operand is a decimal number 0..7" (R71). -/
def rowOperand (o : Operand) : Option (Fin 8) :=
  if h : o.value < 8 then (if o.isHex then none else some ⟨o.value, h⟩) else none

/-- Eight rows and a constant: the operands of LDMAT and BUILDTABLE. -/
def matOperands : List Byte → Option (Mat × Byte)
  | [m0, m1, m2, m3, m4, m5, m6, m7, c] => some (#v[m0, m1, m2, m3, m4, m5, m6, m7], c)
  | _ => none

/-! ## Lines -/

/-- White space inside a line. -/
def isBlank (c : Char) : Bool := c == ' ' || c == '\t'

/-- The text without white space at either end. -/
def trim (cs : List Char) : List Char :=
  ((cs.dropWhile isBlank).reverse.dropWhile isBlank).reverse

/-- "A `;` begins a comment that runs to the end of the line" (R71). -/
def stripComment (cs : List Char) : List Char := cs.takeWhile (· != ';')

/-- The text between separators, with nothing trimmed. -/
def splitOn (sep : Char) : List Char → List (List Char)
  | [] => [[]]
  | c :: cs =>
    if c == sep then [] :: splitOn sep cs
    else
      match splitOn sep cs with
      | [] => [[c]]
      | p :: ps => (c :: p) :: ps

/-- "operands separated by commas" (R71); no text, no operand. -/
def parseOperands (cs : List Char) : Option (List Operand) :=
  match trim cs with
  | [] => some []
  | text => (splitOn ',' text).mapM fun o => parseOperand (trim o)

/-- The commands a mnemonic and its operands stand for; `none` where the mnemonic is not one, or its
operands are not of its form (R71 to R74). -/
def lineInstrs (mnemonic : String) (ops : List Operand) : Option (List Instr) :=
  match mnemonic, ops with
  | "NOP", [] => some [.nop]
  | "GMUL", [a, b] => do return [.gmul (← byteOperand a) (← byteOperand b)]
  | "GINV", [a] => do return [.ginv (← byteOperand a)]
  | "AFFINE", [a] => do return [.affine (← byteOperand a)]
  | "SBENT", [a] => do return [.sbent (← byteOperand a)]
  | "WRMAT", [row, a] => do return [.wrmat (← rowOperand row) (← byteOperand a)]
  | "RDMAT", [row] => do return [.rdmat (← rowOperand row)]
  | "WRCONST", [a] => do return [.wrconst (← byteOperand a)]
  | "RDCONST", [] => some [.rdconst]
  | "BUILD", [] => some [.build]
  | "INIT", [] => some [.init]
  | "SUB", [a] => do return [.sub (← byteOperand a)]
  | "INVSUB", [a] => do return [.invsub (← byteOperand a)]
  | "RDSTAT", [] => some [.rdstat]
  | "LDMAT", ops => do
    let (m, c) ← matOperands (← ops.mapM byteOperand)
    return ldmat m c
  | "BUILDTABLE", ops => do
    let (m, c) ← matOperands (← ops.mapM byteOperand)
    return buildtable m c
  | "SUBSEQ", ops => do return subseq (← ops.mapM byteOperand)
  | "INVSUBSEQ", ops => do return invsubseq (← ops.mapM byteOperand)
  | _, _ => none

/-- The commands of one line: "`MNEMONIC` followed by its operands" (R71). A line with nothing but
white space and a comment stands for none (log 17). -/
def parseLine (line : List Char) : Option (List Instr) :=
  match trim (stripComment line) with
  | [] => some []
  | text => do
    let ops ← parseOperands (text.dropWhile fun c => !isBlank c)
    lineInstrs (String.ofList (text.takeWhile fun c => !isBlank c)) ops

/-- The command words of a text, one line after another; `none` if a line is rejected (R71). -/
def assemble (text : List Char) : Option (List Word32) := do
  let lines ← (splitOn '\n' text).mapM parseLine
  return lines.flatten.map encode

end Sys2Proof.Machine
end

