-- ==== Sys2Proof/Safety.lean ====
section
/-! DEFINITION. What the claims call a legal response, a safe run, and a good state. -/

namespace Sys2Proof.Machine

/-- A response the core may produce (R67, R202): OK with any data, or ILLEGAL with one of the two
cause codes. -/
def legalResponse (r : Word10) : Prop :=
  (∃ d, r = respWord .ok d) ∨ ∃ cause : IllegalCause, r = respWord .illegal cause.code

/-- Every response offered or taken so far is legal. -/
def responsesLegal (s : State) : Prop :=
  (∀ r, s.port = .responding r → legalResponse r) ∧ ∀ r ∈ s.taken, legalResponse r

/-- R28, first sentence: whenever VALID is 1, SBOX was generated from some matrix and constant, and
INVSBOX is its inverse table. -/
def pairInvariant (s : State) : Prop :=
  s.valid = true →
    ∃ m c, s.sbox = generateSbox m c ∧ s.invsbox = generateInverse s.sbox

/-- The ghost flag of R201, kept outside the core's state: no response taken so far was ILLEGAL. -/
def noIllegalTaken (s : State) : Prop :=
  ∀ r ∈ s.taken, ∃ d, r = respWord .ok d

/-- The table is a permutation of the bytes (glossary: "Bijective table"). -/
def bijectiveTable (t : Table) : Prop := Function.Bijective (tableRead t)

/-- The matrix over GF(2) that the eight bytes denote (R23). -/
def toMatrix (m : Mat) : Matrix (Fin 8) (Fin 8) (ZMod 2) :=
  Matrix.of fun i j => if m[i].getLsbD j then 1 else 0

/-- The matrix that the spec's examples use (95_test_vectors.md section 1.1, "AESM"). An example value
only: the spec gives no default matrix (R10). -/
def exampleMat : Mat := #v[0xF1, 0xE3, 0xC7, 0x8F, 0x1F, 0x3E, 0x7C, 0xF8]

/-- The matrix with every bit 0 (R122). -/
def zeroMat : Mat := Vector.replicate 8 0x00

/-- The table pair that the default parameters generate (R151): its SBOX. -/
def defaultSbox : Table := generateSbox Config.defaultMatrix Config.defaultConstant

/-- Bytes as polynomials over GF(2): bit `i` is the coefficient of `x ^ i` (R102). -/
noncomputable def toPoly (a : Byte) : Polynomial (ZMod 2) :=
  ∑ i : Fin 8, if a.getLsbD i then Polynomial.X ^ i.val else 0

/-- x^8 + x^4 + x^3 + x + 1, the reduction polynomial (R14, R102). -/
noncomputable def fieldPoly : Polynomial (ZMod 2) :=
  Polynomial.X ^ 8 + Polynomial.X ^ 4 + Polynomial.X ^ 3 + Polynomial.X + 1

end Sys2Proof.Machine
end

