-- ==== Sys2Proof/Certificates/Slice0/Obligations.lean ====
section
/-! DEFINITION. The statements for the provers. Each docstring names the rule of the spec it
formalises. In every statement about a command the next state is written out as a record update of the
state before, so it says what is written and that everything else is unchanged (the frame). -/

open Sys2Proof Sys2Proof.Machine

/-! ## Encoding and decoding -/

/-- A step runs the decoded command: with the port ready and a word offered, the step is `exec` of the
command the word decodes to, at the state with the offer used up; an illegal word is answered by the
ILLEGAL response. What the step adds around `exec` is that the host's offer is used up (R61). -/
def Obligations.StepRunsTheDecodedCommand : Prop :=
  ∀ (s : State) (w : Word32) (rest : List HostAction),
    s.port = .ready → s.host = .command w :: rest →
      (∀ i, decode w = .ok i → step s = exec i { s with host := rest }) ∧
      (∀ c, decode w = .error c →
        step s = .next { s with host := rest, port := .responding (respWord .illegal c.code) })

/-- Words written out from the spec's patterns (R65) and examples decode to what they stand for. -/
def Obligations.SampleWordsDecode : Prop :=
  decode 0b00000000000000000000000000000000#32 = .ok .nop ∧
  decode 0b00000001000000001000001101010111#32 = .ok (.gmul 0x57 0x83) ∧
  decode 0b00000010000000000000000001010011#32 = .ok (.ginv 0x53) ∧
  decode 0b00000101000000110000000010001111#32 = .ok (.wrmat 3 0x8F) ∧
  decode 0b00000110000001110000000000000000#32 = .ok (.rdmat 7) ∧
  decode 0b00001001000000000000000000000000#32 = .ok .build ∧
  decode 0b00001100000000000000000011111111#32 = .ok (.invsub 0xFF) ∧
  decode 0b00001110000000000000000000000000#32 = .error .undefinedOpcode ∧
  decode 0b00000101000010000000000000000000#32 = .error .reservedField

/-- Decoding the encoder's word of any command gives the command back (R65, R68, R71). -/
def Obligations.DecodeOfEncode : Prop := ∀ i : Instr, decode (encode i) = .ok i

/-- A word that decodes to a command is the encoder's word of it: every legal command is one exact
pattern (R64). -/
def Obligations.EncodeOfDecode : Prop :=
  ∀ (w : Word32) (i : Instr), decode w = .ok i → encode i = w

/-- R65: a command is legal exactly when it matches a row of the opcode map, and it is the command of
that row. -/
def Obligations.LegalExactlyWhenMaskMatches : Prop :=
  (∀ w : Word32, (∃ i, decode w = .ok i) ↔ ∃ r ∈ opcodeMap, w &&& r.mask = r.pattern) ∧
  (∀ (w : Word32) (i : Instr), decode w = .ok i →
    ∀ r ∈ opcodeMap, w &&& r.mask = r.pattern ↔ r.mnemonic = i.mnemonic)

/-- R68: the decoder is total; an opcode above 0x0D is undefined, any other word that does not match
its row has a stray bit, and a legal word is exactly one command, which determines every bit of it. -/
def Obligations.DecoderIsTotalAndExact : Prop :=
  (∀ w : Word32, 0x0D < (w.extractLsb' 24 8).toNat → decode w = .error .undefinedOpcode) ∧
  (∀ w : Word32, (w.extractLsb' 24 8).toNat ≤ 0x0D → legalWord w = false →
    decode w = .error .reservedField) ∧
  (∀ w : Word32, legalWord w = true → ∃ i, decode w = .ok i ∧ encode i = w)

/-- R202 and R203: the cause an ILLEGAL response carries, the opcode's test first. -/
def Obligations.CauseCodesAndPriority : Prop :=
  (∀ (w : Word32) (s : State), 0x0D < (w.extractLsb' 24 8).toNat →
    executeWord w s = .next { s with port := .responding (respWord .illegal 0x01) }) ∧
  (∀ (w : Word32) (s : State), (w.extractLsb' 24 8).toNat ≤ 0x0D → legalWord w = false →
    executeWord w s = .next { s with port := .responding (respWord .illegal 0x02) }) ∧
  (∀ (w : Word32) (s t : State) (d : Byte), executeWord w s = .next t →
    t.port = .responding (respWord .illegal d) → d = 0x01 ∨ d = 0x02)

/-- R69: opcodes 0x0E to 0xFF are answered by {ILLEGAL, 0x01}, and change nothing. -/
def Obligations.UndefinedOpcodesChangeNothing : Prop :=
  ∀ (s : State) (w : Word32) (rest : List HostAction),
    s.port = .ready → s.host = .command w :: rest → 0x0E ≤ (w.extractLsb' 24 8).toNat →
      step s = .next { s with host := rest, port := .responding 0x101 }

/-- R201: nothing of an illegal command remains after its response has been taken, and the port is
ready for the next command. -/
def Obligations.IllegalCommandLeavesNoTrace : Prop :=
  ∀ (s : State) (w : Word32) (cause : IllegalCause) (rest : List HostAction),
    s.port = .ready → s.host = .command w :: .take :: rest → decode w = .error cause →
      ∃ t, step s = .next t ∧
        step t = .next
          { s with host := rest, taken := s.taken ++ [respWord .illegal cause.code] }

/-- R71: the encoding formula of the assembler, `(OP << 24) or (row << 16) or (b << 8) or a`. -/
def Obligations.EncodingFormula : Prop :=
  ∀ (op : Byte) (row : Fin 8) (b a : Byte),
    packWord op row b a =
      (op.setWidth 32 <<< 24) ||| (BitVec.ofNat 32 row.val <<< 16) ||| (b.setWidth 32 <<< 8) |||
        a.setWidth 32

/-- R71: an operand out of range is rejected and never wrapped; a row is written in decimal. -/
def Obligations.OperandsOutOfRangeAreRejected : Prop :=
  (∀ (n : Nat) (h : Bool), byteOperand ⟨n, h⟩ = if n ≤ 255 then some (BitVec.ofNat 8 n) else none) ∧
  (∀ (n : Nat), 7 < n → rowOperand ⟨n, false⟩ = none) ∧
  (∀ r : Fin 8, rowOperand ⟨r.val, false⟩ = some r ∧ rowOperand ⟨r.val, true⟩ = none)

/-! ## The commands, one rule each -/

/-- R180, NOP. -/
def Obligations.NopRespondsAndChangesNothing : Prop :=
  (∀ s : State, exec .nop s = .next { s with port := .responding (respWord .ok 0x00) }) ∧
  (∀ w : Word32, w &&& 0xFFFFFFFF = 0x00000000 ↔ decode w = .ok .nop) ∧
  (∀ w : Word32, w.extractLsb' 24 8 = 0x00 → w ≠ 0x00000000 → decode w = .error .reservedField) ∧
  respWord .ok 0x00 = 0x000

/-- R105, GMUL. -/
def Obligations.GmulRespondsTheProduct : Prop :=
  (∀ (a b : Byte) (s : State),
    exec (.gmul a b) s = .next { s with port := .responding (respWord .ok (gmul a b)) }) ∧
  (∀ w : Word32, w &&& 0xFFFF0000 = 0x01000000 ↔
    decode w = .ok (.gmul (w.extractLsb' 0 8) (w.extractLsb' 8 8))) ∧
  (∀ w : Word32, w.extractLsb' 24 8 = 0x01 → w.extractLsb' 16 8 ≠ 0x00 →
    decode w = .error .reservedField) ∧
  (∀ a : Byte, gmul a 0x00 = 0x00 ∧ gmul 0x00 a = 0x00 ∧ gmul a 0x01 = a) ∧
  decode 0x01008357 = .ok (.gmul 0x57 0x83) ∧ gmul 0x57 0x83 = 0xC1

/-- R106, GINV. -/
def Obligations.GinvRespondsTheInverse : Prop :=
  (∀ (a : Byte) (s : State),
    exec (.ginv a) s = .next { s with port := .responding (respWord .ok (ginv a)) }) ∧
  (∀ w : Word32, w &&& 0xFFFFFF00 = 0x02000000 ↔ decode w = .ok (.ginv (w.extractLsb' 0 8))) ∧
  (∀ w : Word32, w.extractLsb' 24 8 = 0x02 → w.extractLsb' 8 16 ≠ 0x0000 →
    decode w = .error .reservedField) ∧
  ginv 0x00 = 0x00 ∧ ginv 0x01 = 0x01 ∧
  decode 0x02000053 = .ok (.ginv 0x53) ∧ ginv 0x53 = 0xCA

/-- R128, AFFINE. -/
def Obligations.AffineRespondsTheTransform : Prop :=
  (∀ (a : Byte) (s : State),
    exec (.affine a) s =
      .next { s with port := .responding (respWord .ok (affine a s.mat s.const)) }) ∧
  (∀ w : Word32, w &&& 0xFFFFFF00 = 0x03000000 ↔ decode w = .ok (.affine (w.extractLsb' 0 8))) ∧
  (∀ w : Word32, w.extractLsb' 24 8 = 0x03 → w.extractLsb' 8 16 ≠ 0x0000 →
    decode w = .error .reservedField) ∧
  (∀ s : State,
    exec (.affine 0x00) s = .next { s with port := .responding (respWord .ok s.const) }) ∧
  (∀ (a : Byte) (s : State), s.mat = zeroMat →
    exec (.affine a) s = .next { s with port := .responding (respWord .ok s.const) }) ∧
  (∀ (a : Byte) (s : State), s.mat = identityMat → s.const = 0x00 →
    exec (.affine a) s = .next { s with port := .responding (respWord .ok a) }) ∧
  decode 0x030000CA = .ok (.affine 0xCA) ∧ affine 0xCA exampleMat 0x63 = 0xED

/-- R148, SBENT. -/
def Obligations.SbentRespondsOneEntry : Prop :=
  (∀ (a : Byte) (s : State),
    exec (.sbent a) s =
      .next { s with port := .responding (respWord .ok (affine (ginv a) s.mat s.const)) }) ∧
  (∀ w : Word32, w &&& 0xFFFFFF00 = 0x04000000 ↔ decode w = .ok (.sbent (w.extractLsb' 0 8))) ∧
  (∀ w : Word32, w.extractLsb' 24 8 = 0x04 → w.extractLsb' 8 16 ≠ 0x0000 →
    decode w = .error .reservedField) ∧
  (∀ s : State,
    exec (.sbent 0x00) s = .next { s with port := .responding (respWord .ok s.const) }) ∧
  (∀ (a : Byte) (s t : State), exec .build s = .next t →
    exec (.sbent a) s =
      .next { s with port := .responding (respWord .ok (tableRead t.sbox a)) }) ∧
  decode 0x04000053 = .ok (.sbent 0x53) ∧ affine (ginv 0x53) exampleMat 0x63 = 0xED

/-- R124, WRMAT. -/
def Obligations.WrmatWritesOneRow : Prop :=
  (∀ (row : Fin 8) (a : Byte) (s : State), ∃ m : Mat,
    exec (.wrmat row a) s = .next { s with mat := m, port := .responding (respWord .ok 0x00) } ∧
      m[row] = a ∧ ∀ r : Fin 8, r ≠ row → m[r] = s.mat[r]) ∧
  (∀ w : Word32, w &&& 0xFFF8FF00 = 0x05000000 ↔
    decode w = .ok (.wrmat (w.extractLsb' 16 3).toFin (w.extractLsb' 0 8))) ∧
  (∀ w : Word32, w.extractLsb' 24 8 = 0x05 →
    w.extractLsb' 8 8 ≠ 0x00 ∨ w.extractLsb' 19 5 ≠ 0x00 → decode w = .error .reservedField) ∧
  (∀ (row : Fin 8) (s : State),
    exec (.wrmat row s.mat[row]) s = .next { s with port := .responding (respWord .ok 0x00) }) ∧
  decode 0x0503008F = .ok (.wrmat 3 0x8F)

/-- R125, RDMAT. -/
def Obligations.RdmatReadsOneRow : Prop :=
  (∀ (row : Fin 8) (s : State),
    exec (.rdmat row) s = .next { s with port := .responding (respWord .ok s.mat[row]) }) ∧
  (∀ w : Word32, w &&& 0xFFF8FFFF = 0x06000000 ↔
    decode w = .ok (.rdmat (w.extractLsb' 16 3).toFin)) ∧
  (∀ w : Word32, w.extractLsb' 24 8 = 0x06 →
    w.extractLsb' 0 16 ≠ 0x0000 ∨ w.extractLsb' 19 5 ≠ 0x00 → decode w = .error .reservedField) ∧
  (∀ row : Fin 8, exec (.rdmat row) State.reset =
    .next { State.reset with port := .responding (respWord .ok Config.defaultMatrix[row]) }) ∧
  (∀ s t : State, exec (.wrmat 3 0x8F) s = .next t →
    exec (.rdmat 3) t = .next { t with port := .responding (respWord .ok 0x8F) }) ∧
  decode 0x06030000 = .ok (.rdmat 3)

/-- R126, WRCONST. -/
def Obligations.WrconstWritesTheConstant : Prop :=
  (∀ (a : Byte) (s : State),
    exec (.wrconst a) s =
      .next { s with const := a, port := .responding (respWord .ok 0x00) }) ∧
  (∀ w : Word32, w &&& 0xFFFFFF00 = 0x07000000 ↔ decode w = .ok (.wrconst (w.extractLsb' 0 8))) ∧
  (∀ w : Word32, w.extractLsb' 24 8 = 0x07 → w.extractLsb' 8 16 ≠ 0x0000 →
    decode w = .error .reservedField) ∧
  decode 0x07000063 = .ok (.wrconst 0x63)

/-- R127, RDCONST. -/
def Obligations.RdconstReadsTheConstant : Prop :=
  (∀ s : State, exec .rdconst s = .next { s with port := .responding (respWord .ok s.const) }) ∧
  (∀ w : Word32, w &&& 0xFFFFFFFF = 0x08000000 ↔ decode w = .ok .rdconst) ∧
  (∀ w : Word32, w.extractLsb' 24 8 = 0x08 → w.extractLsb' 0 24 ≠ 0x000000 →
    decode w = .error .reservedField) ∧
  exec .rdconst State.reset =
    .next { State.reset with port := .responding (respWord .ok 0x63) }

/-- R149, BUILD. -/
def Obligations.BuildActivatesTheStagedPair : Prop :=
  (∀ s : State,
    exec .build s =
      .next { s with
        sbox := generateSbox s.mat s.const
        invsbox := generateInverse (generateSbox s.mat s.const)
        valid := true
        port := .responding (respWord .ok 0x00) }) ∧
  (∀ w : Word32, w &&& 0xFFFFFFFF = 0x09000000 ↔ decode w = .ok .build) ∧
  (∀ w : Word32, w.extractLsb' 24 8 = 0x09 → w.extractLsb' 0 24 ≠ 0x000000 →
    decode w = .error .reservedField) ∧
  (∀ s t : State, exec .build s = .next t → exec .build t = .next t) ∧
  (∀ s t : State, s.mat = zeroMat → exec .build s = .next t →
    (∀ x, tableRead t.sbox x = s.const) ∧
    ∀ y, tableRead t.invsbox y = if y = s.const then 0xFF else 0x00) ∧
  (∀ s t : State, s.mat = exampleMat → s.const = 0x63 → exec .build s = .next t →
    tableRead t.sbox 0x53 = 0xED ∧ tableRead t.invsbox 0xED = 0x53)

/-- R151, INIT. -/
def Obligations.InitActivatesTheDefaultPair : Prop :=
  (∀ s : State,
    exec .init s =
      .next { s with
        sbox := generateSbox Config.defaultMatrix Config.defaultConstant
        invsbox := generateInverse (generateSbox Config.defaultMatrix Config.defaultConstant)
        valid := true
        port := .responding (respWord .ok 0x00) }) ∧
  (∀ w : Word32, w &&& 0xFFFFFFFF = 0x0A000000 ↔ decode w = .ok .init) ∧
  (∀ w : Word32, w.extractLsb' 24 8 = 0x0A → w.extractLsb' 0 24 ≠ 0x000000 →
    decode w = .error .reservedField) ∧
  (∀ s t : State, exec .init s = .next t →
    tableRead t.sbox 0x00 = Config.defaultConstant ∧ Config.defaultConstant = 0x63 ∧
    bijectiveTable t.sbox ∧ (∀ x, tableRead t.invsbox (tableRead t.sbox x) = x) ∧
    exec (.sub 0x00) t = .next { t with port := .responding (respWord .ok 0x63) })

/-- R163, SUB. -/
def Obligations.SubLooksUpTheSbox : Prop :=
  (∀ (a : Byte) (s : State), s.valid = true →
    exec (.sub a) s = .next { s with port := .responding (respWord .ok (tableRead s.sbox a)) }) ∧
  (∀ (a : Byte) (s : State), s.valid = false →
    exec (.sub a) s =
      .next { s with
        sbox := defaultSbox
        invsbox := generateInverse defaultSbox
        valid := true
        port := .responding (respWord .ok (tableRead defaultSbox a)) }) ∧
  (∀ w : Word32, w &&& 0xFFFFFF00 = 0x0B000000 ↔ decode w = .ok (.sub (w.extractLsb' 0 8))) ∧
  (∀ w : Word32, w.extractLsb' 24 8 = 0x0B → w.extractLsb' 8 16 ≠ 0x0000 →
    decode w = .error .reservedField) ∧
  tableRead defaultSbox 0x00 = 0x63 ∧
  (∀ (a : Byte) (s t : State), s.valid = false → exec .init s = .next t →
    exec (.sub a) s = exec (.sub a) t) ∧
  decode 0x0B000048 = .ok (.sub 0x48) ∧ tableRead (generateSbox exampleMat 0x63) 0x48 = 0x52

/-- R165, INVSUB. -/
def Obligations.InvsubLooksUpTheInverse : Prop :=
  (∀ (a : Byte) (s : State), s.valid = true →
    exec (.invsub a) s =
      .next { s with port := .responding (respWord .ok (tableRead s.invsbox a)) }) ∧
  (∀ (a : Byte) (s : State), s.valid = false →
    exec (.invsub a) s =
      .next { s with
        sbox := defaultSbox
        invsbox := generateInverse defaultSbox
        valid := true
        port := .responding (respWord .ok (tableRead (generateInverse defaultSbox) a)) }) ∧
  (∀ w : Word32, w &&& 0xFFFFFF00 = 0x0C000000 ↔ decode w = .ok (.invsub (w.extractLsb' 0 8))) ∧
  (∀ w : Word32, w.extractLsb' 24 8 = 0x0C → w.extractLsb' 8 16 ≠ 0x0000 →
    decode w = .error .reservedField) ∧
  (∀ (a : Byte) (s : State), s.valid = true → s.invsbox = generateInverse s.sbox →
    (∀ x, tableRead s.sbox x ≠ a) →
      exec (.invsub a) s = .next { s with port := .responding (respWord .ok 0x00) }) ∧
  (∀ (a x : Byte) (s : State), s.valid = true → s.invsbox = generateInverse s.sbox →
    tableRead s.sbox x = a → (∀ y, tableRead s.sbox y = a → y ≤ x) →
      exec (.invsub a) s = .next { s with port := .responding (respWord .ok x) }) ∧
  decode 0x0C000052 = .ok (.invsub 0x52) ∧
  tableRead (generateInverse (generateSbox exampleMat 0x63)) 0x52 = 0x48

/-- R181, RDSTAT. -/
def Obligations.RdstatReadsTheStatus : Prop :=
  (∀ s : State,
    exec .rdstat s =
      .next { s with port := .responding (respWord .ok (if s.valid then 0x01 else 0x00)) }) ∧
  (∀ w : Word32, w &&& 0xFFFFFFFF = 0x0D000000 ↔ decode w = .ok .rdstat) ∧
  (∀ w : Word32, w.extractLsb' 24 8 = 0x0D → w.extractLsb' 0 24 ≠ 0x000000 →
    decode w = .error .reservedField) ∧
  (∀ (s t : State) (a : Byte),
    exec .build s = .next t ∨ exec .init s = .next t ∨ exec (.sub a) s = .next t ∨
        exec (.invsub a) s = .next t →
      exec .rdstat t = .next { t with port := .responding 0x001 }) ∧
  exec .rdstat (State.resetWith false) =
    .next { State.resetWith false with port := .responding 0x000 } ∧
  exec .rdstat (State.resetWith true) =
    .next { State.resetWith true with port := .responding 0x001 } ∧
  (∀ (s : State) (k : Nat), 0 < k → (statusView s).getLsbD k = false)

/-! ## The functions -/

/-- R101: the reduction step in its other reading. -/
def Obligations.ReductionStepReadingsAgree : Prop :=
  ∀ x : Byte, xtime x = (x <<< 1) ^^^ (if x.getLsbD 7 then 0x1B else 0x00)

/-- R102: `gmul` is the product of the polynomials, reduced modulo x^8 + x^4 + x^3 + x + 1. -/
def Obligations.GmulIsThePolynomialProduct : Prop :=
  ∀ a b : Byte, toPoly (gmul a b) = (toPoly a * toPoly b) %ₘ fieldPoly

/-- R107: the identities that the source states. -/
def Obligations.FieldIdentities : Prop :=
  ∀ a : Byte, gmul a 0x00 = 0x00 ∧ gmul a 0x01 = a ∧ (a ≠ 0x00 → gmul a (ginv a) = 0x01) ∧
    ginv 0x00 = 0x00

/-- R108: commutativity, associativity, distributivity over `xor`, no zero divisors. -/
def Obligations.FieldLaws : Prop :=
  (∀ a b : Byte, gmul a b = gmul b a) ∧
  (∀ a b c : Byte, gmul (gmul a b) c = gmul a (gmul b c)) ∧
  (∀ a b c : Byte, gmul a (b ^^^ c) = gmul a b ^^^ gmul a c) ∧
  (∀ a b : Byte, gmul a b = 0x00 ↔ a = 0x00 ∨ b = 0x00)

/-- R103: `ginv 0 = 0`, and otherwise `ginv x` is the first `i` with `gmul x i = 1`. -/
def Obligations.GinvIsTheFirstCandidate : Prop :=
  ginv 0x00 = 0x00 ∧
  ∀ x : Byte, x ≠ 0x00 → gmul x (ginv x) = 0x01 ∧ ∀ i, i < ginv x → gmul x i ≠ 0x01

/-- R104: the inverse is unique, and `ginv` is a permutation and its own inverse. -/
def Obligations.GinvIsAnInvolution : Prop :=
  (∀ x : Byte, x ≠ 0x00 → ∃! i, gmul x i = 0x01) ∧ Function.Bijective ginv ∧
  ∀ x : Byte, ginv (ginv x) = x

/-- R120: output bit `i`, of weight `2 ^ i`, is the parity of the number of ones of `M[i] and x`, XOR
bit `i` of the constant. -/
def Obligations.AffineBitsAreParities : Prop :=
  ∀ (x : Byte) (m : Mat) (c : Byte) (i : Fin 8),
    (affine x m c).getLsbD i =
      (decide ((Finset.univ.filter fun j : Fin 8 => (m[i] &&& x).getLsbD j).card % 2 = 1) ^^
        c.getLsbD i)

/-- R122: the laws of `affine`. -/
def Obligations.AffineLaws : Prop :=
  (∀ (m : Mat) (c : Byte), affine 0x00 m c = c) ∧
  (∀ (x y : Byte) (m : Mat) (c : Byte), affine (x ^^^ y) m c = affine x m c ^^^ affine y m c ^^^ c) ∧
  (∀ x c : Byte, affine x identityMat c = x ^^^ c) ∧
  (∀ x c : Byte, affine x zeroMat c = c) ∧
  (∀ (m : Mat) (c : Byte),
    Function.Bijective (fun x => affine x m c) ↔ IsUnit (toMatrix m))

/-- R143: for every value the table produces, its inverse table keeps the largest index. -/
def Obligations.InverseKeepsTheLastIndex : Prop :=
  ∀ (t : Table) (x : Byte),
    tableRead t (tableRead (generateInverse t) (tableRead t x)) = tableRead t x ∧
    x ≤ tableRead (generateInverse t) (tableRead t x)

/-- R144: for every value the table never produces, its inverse table holds the sentinel 0. -/
def Obligations.InverseHoldsTheSentinel : Prop :=
  ∀ (t : Table) (y : Byte), (∀ x, tableRead t x ≠ y) → tableRead (generateInverse t) y = 0x00

/-- R145: the inverse table of a bijective table is its inverse, on both sides. -/
def Obligations.InverseOfBijectiveTable : Prop :=
  ∀ t : Table, bijectiveTable t →
    (∀ x, tableRead (generateInverse t) (tableRead t x) = x) ∧
    ∀ y, tableRead t (tableRead (generateInverse t) y) = y

/-- R146: the S-box is bijective exactly when the matrix is invertible over GF(2). -/
def Obligations.SboxBijectiveIffInvertible : Prop :=
  ∀ (m : Mat) (c : Byte), bijectiveTable (generateSbox m c) ↔ IsUnit (toMatrix m)

/-- R147: entry 0 of every generated S-box is the constant; of the default one, 0x63, whatever the
default matrix is. -/
def Obligations.EntryZeroIsTheConstant : Prop :=
  (∀ (m : Mat) (c : Byte), tableRead (generateSbox m c) 0x00 = c) ∧
  (∀ m : Mat, tableRead (generateSbox m Config.defaultConstant) 0x00 = 0x63)

/-- R10's constraint, in the model's form (log 1): whatever the implementation chose, the default
matrix is invertible over GF(2). -/
def Obligations.DefaultMatrixIsInvertible : Prop := IsUnit (toMatrix Config.defaultMatrix)

/-! ## Reset and the ports -/

/-- The table of 10_state.md section 6, for both values of RESET_AUTO_INIT, and that the machine's own
reset state is the one of the parameter's default, `true` (R12), the model's choice among the cores the
parameter allows (log 3). The last three fields are the model's
own (log 5, log 7), and nothing is claimed of them here. -/
def Obligations.ResetStateIsAsTabulated : Prop :=
  State.reset = State.resetWith true ∧ State.reset.valid = true ∧
  ∀ auto : Bool,
    (∀ r : Fin 8, (State.resetWith auto).mat[r] = Config.defaultMatrix[r]) ∧
    (State.resetWith auto).const = 0x63 ∧
    (State.resetWith auto).valid = auto ∧
    (auto = true → (State.resetWith auto).sbox = defaultSbox ∧
      (State.resetWith auto).invsbox = generateInverse defaultSbox) ∧
    statusView (State.resetWith auto) = (if auto then 0x01 else 0x00) ∧
    cmdReady (State.resetWith auto) = true ∧ rspOffered (State.resetWith auto) = none

/-- R240: what a rising edge with `rst = 1` does, whatever command is in flight: it is abandoned, and
it gets no response. That no response is taken at that very edge rests on the model's host, which does
not drive `rsp_ready` there (log 21). -/
def Obligations.ResetAssertionAbandonsTheCommand : Prop :=
  ∀ (s : State), rst s = true →
    ∃ t, step s = .next t ∧ (∀ r : Fin 8, t.mat[r] = Config.defaultMatrix[r]) ∧
      t.const = Config.defaultConstant ∧ t.valid = false ∧ cmdReady t = false ∧
      rspOffered t = none ∧ t.taken = s.taken

/-- R240, R242, R243: a reset from any state, held for one edge, ends at the tabulated state, with the
port ready and nothing pending, for both values of RESET_AUTO_INIT. That the sequence is one edge
(log 11), and that the edge with `rst = 1` takes no response (log 21), are the model's choices. -/
def Obligations.ResetSequenceReachesReady : Prop :=
  ∀ (auto : Bool) (s : State) (rest : List HostAction),
    s.host = .reset :: rest → rest.head? ≠ some .reset →
      ∃ t u, clockEdgeWith auto s = .next t ∧ clockEdgeWith auto t = .next u ∧
        u.mat = Config.defaultMatrix ∧ u.const = Config.defaultConstant ∧ u.valid = auto ∧
        (auto = true → u.sbox = defaultSbox ∧ u.invsbox = generateInverse defaultSbox) ∧
        u.port = .ready ∧ u.host = rest ∧ u.taken = s.taken

/-- R12, R242: RESET_AUTO_INIT acts in the reset sequence and nowhere else, and a step of the machine is
an edge of the core with the parameter at its default, `true`. So what is stated of `step` at any other
edge holds of a core with the parameter `false`. That `step` is the core at the default (log 3), and
that the reset sequence is one edge, after which the port is ready (log 11), are the model's choices. -/
def Obligations.AutoInitActsOnlyInTheResetSequence : Prop :=
  (∀ s : State, step s = clockEdgeWith true s) ∧
  (∀ (auto : Bool) (s : State), rst s = true ∨ s.port ≠ .inReset →
    clockEdgeWith auto s = step s) ∧
  (∀ s : State, rst s = false → s.port = .inReset →
    clockEdgeWith true s =
        .next { s with
          sbox := defaultSbox
          invsbox := generateInverse defaultSbox
          valid := true
          port := .ready } ∧
      clockEdgeWith false s = .next { s with port := .ready })

/-- R61 but for its latency (log 4), over the model's form of the host (log 7): a command is accepted where `cmd_valid` and `cmd_ready` are 1; from that edge on `cmd_ready`
is 0 until its one response is taken; both sides hold their data until then. -/
def Obligations.HandshakeHoldsOneCommand : Prop :=
  (∀ (s : State) (w : Word32), cmdOffered s = some w → cmdReady s = true →
    ∃ t r, step s = .next t ∧ executeWord w { s with host := s.host.tail } = .next t ∧
      cmdReady t = false ∧ rspOffered t = some r ∧ t.taken = s.taken ∧ t.host = s.host.tail) ∧
  (∀ (s : State) (r : Word10), rspOffered s = some r → rspReady s = true →
    ∃ t, step s = .next t ∧ cmdReady t = true ∧ rspOffered t = none ∧
      t.taken = s.taken ++ [r] ∧ t.host = s.host.tail) ∧
  (∀ (s : State) (w : Word32), cmdOffered s = some w → cmdReady s = false →
    ∃ t, step s = .next t ∧ cmdOffered t = some w) ∧
  (∀ (s : State) (r : Word10), rspOffered s = some r → rspReady s = false → rst s = false →
    step s = .next s)

/-! ## The machine as a whole -/

/-- R67, R200: every legal command completes and responds OK; nothing but its response reaches the
ports, and no fault or refusal exists. -/
def Obligations.EveryLegalCommandRespondsOk : Prop :=
  ∀ (i : Instr) (s : State), ∃ t d, exec i s = .next t ∧ t.port = .responding (respWord .ok d) ∧
    t.host = s.host ∧ t.taken = s.taken ∧ t.fresh = s.fresh

/-- R200: no step stops, for either value of RESET_AUTO_INIT. -/
def Obligations.EveryStepAnswersNext : Prop :=
  ∀ s : State, (∃ t, step s = .next t) ∧ ∀ auto : Bool, ∃ t, clockEdgeWith auto s = .next t

/-- R47: no command but WRMAT, WRCONST, BUILD, INIT, and a SUB or INVSUB while VALID = 0, changes the
state; its response is all it leaves. -/
def Obligations.ReadsHaveNoSideEffects : Prop :=
  ∀ (i : Instr) (s t : State), exec i s = .next t →
    (∀ row a, i ≠ .wrmat row a) → (∀ a, i ≠ .wrconst a) → i ≠ .build → i ≠ .init →
    (s.valid = true ∨ ∀ a, i ≠ .sub a ∧ i ≠ .invsub a) →
      t = { s with port := t.port }

/-- R22, R24, R124, R126, R152: only WRMAT writes MAT and only WRCONST writes CONST, by any command. -/
def Obligations.StagingWrittenOnlyByItsCommands : Prop :=
  ∀ (i : Instr) (s t : State), exec i s = .next t →
    ((∀ row a, i ≠ .wrmat row a) → t.mat = s.mat) ∧ ((∀ a, i ≠ .wrconst a) → t.const = s.const)

/-- R25, R26, R46: a command leaves both tables and VALID as they were, or replaces the pair whole:
BUILD from the staging registers, INIT and the emergency initialisation from the defaults. -/
def Obligations.TablesReplacedOnlyWhole : Prop :=
  ∀ (i : Instr) (s t : State), exec i s = .next t →
    (t.sbox = s.sbox ∧ t.invsbox = s.invsbox ∧ t.valid = s.valid) ∨
    (t.valid = true ∧ t.invsbox = generateInverse t.sbox ∧
      ((i = .build ∧ t.sbox = generateSbox s.mat s.const) ∨
        ((i = .init ∨ (s.valid = false ∧ ∃ a, i = .sub a ∨ i = .invsub a)) ∧
          t.sbox = defaultSbox)))

/-- R48: a command executed twice in a row gives the same response and leaves the same state. -/
def Obligations.CommandsAreIdempotent : Prop :=
  ∀ (i : Instr) (s t : State), exec i s = .next t → exec i t = .next t

/-- R27: no step but a reset clears VALID, for either value of RESET_AUTO_INIT. -/
def Obligations.ValidStaysSetUntilReset : Prop :=
  ∀ s t : State, rst s = false → s.valid = true →
    (step s = .next t → t.valid = true) ∧
    ∀ auto : Bool, clockEdgeWith auto s = .next t → t.valid = true

/-- R28, as an invariant of every step, from every state that meets it, for either value of
RESET_AUTO_INIT. -/
def Obligations.PairInvariantKept : Prop :=
  ∀ s t : State, pairInvariant s →
    (step s = .next t → pairInvariant t) ∧
    ∀ auto : Bool, clockEdgeWith auto s = .next t → pairInvariant t

/-- R67, R202, as an invariant: the core never produces a reserved status or cause code, for either
value of RESET_AUTO_INIT. -/
def Obligations.ResponsesStayLegal : Prop :=
  ∀ s t : State, responsesLegal s →
    (step s = .next t → responsesLegal t) ∧
    ∀ auto : Bool, clockEdgeWith auto s = .next t → responsesLegal t

/-- Both invariants hold right after reset, for both values of RESET_AUTO_INIT. -/
def Obligations.InvariantsHoldAtReset : Prop :=
  (∀ auto : Bool, pairInvariant (State.resetWith auto) ∧ responsesLegal (State.resetWith auto)) ∧
  pairInvariant State.reset ∧ responsesLegal State.reset

/-! ## Runs and sequences -/

/-- R249, R61, over the model's form of the host (log 7) and its edges (log 8): a host that offers each word and takes each response, through the ports and edge by
edge, obtains exactly the run: one response for each word, in order, and the port ready again. -/
def Obligations.PortsRefineTheRun : Prop :=
  ∀ (ws : List Word32) (s : State), s.port = .ready →
    ∃ t, runWords ws s = .next t ∧
      Sys2Proof.core.run (2 * ws.length) { s with host := offerAndTake ws ++ s.host } = .next t ∧
      t.port = .ready ∧ t.host = s.host ∧
      ∃ rs, t.taken = s.taken ++ rs ∧ rs.length = ws.length

/-- R166, R167: SUBSEQ and INVSUBSEQ yield one looked-up byte for each byte, in order, all from the
table generation that is active after the first command. -/
def Obligations.SequencesLookUpEveryByte : Prop :=
  (∀ (d : List Byte) (s : State), s.port = .ready →
    ∃ t, runWords ((subseq d).map encode) s = .next t ∧
      t.taken = s.taken ++ d.map (fun x => respWord .ok (tableRead t.sbox x)) ∧
      (d ≠ [] → t.sbox = if s.valid then s.sbox else defaultSbox)) ∧
  (∀ (d : List Byte) (s : State), s.port = .ready →
    ∃ t, runWords ((invsubseq d).map encode) s = .next t ∧
      t.taken = s.taken ++ d.map (fun x => respWord .ok (tableRead t.invsbox x)) ∧
      (d ≠ [] → t.invsbox = if s.valid then s.invsbox else generateInverse defaultSbox))

/-- R168: with a bijective active S-box and its inverse table, INVSUBSEQ of what SUBSEQ yields gives
the sequence back. -/
def Obligations.RoundTripWhenBijective : Prop :=
  ∀ (d : List Byte) (s : State), s.port = .ready → s.valid = true → bijectiveTable s.sbox →
    s.invsbox = generateInverse s.sbox →
      ∃ t, runWords ((subseq d ++ invsubseq (d.map (tableRead s.sbox))).map encode) s = .next t ∧
        t.taken = s.taken ++ d.map (fun x => respWord .ok (tableRead s.sbox x)) ++
          d.map (respWord .ok)

/-- R169: with any active S-box, INVSUB of what SUB yields is the largest input with that output, which
can differ from the input given to SUB. -/
def Obligations.LossyRoundTrip : Prop :=
  (∀ (x : Byte) (s : State), s.valid = true → s.invsbox = generateInverse s.sbox →
    ∃ j, exec (.invsub (tableRead s.sbox x)) s =
        .next { s with port := .responding (respWord .ok j) } ∧
      tableRead s.sbox j = tableRead s.sbox x ∧
      ∀ i, tableRead s.sbox i = tableRead s.sbox x → i ≤ j) ∧
  ∃ (m : Mat) (c x : Byte),
    tableRead (generateInverse (generateSbox m c)) (tableRead (generateSbox m c) x) ≠ x

/-- R72: LDMAT is nine commands, in this order, that load the whole matrix and the constant, and
nothing else. -/
def Obligations.LdmatLoadsMatrixAndConstant : Prop :=
  ∀ (m : Mat) (c : Byte) (s : State), s.port = .ready →
    ldmat m c =
      [.wrmat 0 m[0], .wrmat 1 m[1], .wrmat 2 m[2], .wrmat 3 m[3], .wrmat 4 m[4], .wrmat 5 m[5],
        .wrmat 6 m[6], .wrmat 7 m[7], .wrconst c] ∧
    runWords ((ldmat m c).map encode) s =
      .next { s with
        mat := m
        const := c
        taken := s.taken ++ List.replicate 9 (respWord .ok 0x00) }

/-- R73: BUILDTABLE is 266 commands, and the DATA of its 256 SUB responses, in order, are the table
that the operands generate. -/
def Obligations.BuildtableReadsBackTheTable : Prop :=
  ∀ (m : Mat) (c : Byte) (s : State), s.port = .ready →
    buildtable m c = ldmat m c ++ [.build] ++ allBytes.map .sub ∧ (buildtable m c).length = 266 ∧
    ∃ t, runWords ((buildtable m c).map encode) s = .next t ∧
      t.mat = m ∧ t.const = c ∧ t.sbox = generateSbox m c ∧
      t.invsbox = generateInverse (generateSbox m c) ∧ t.valid = true ∧
      t.taken = s.taken ++ List.replicate 10 (respWord .ok 0x00) ++
        allBytes.map (fun x => respWord .ok (tableRead (generateSbox m c) x))
end

