-- ==== Sys2Proof/Laws/Functions.lean ====
section
/-! SUPPORT. The laws of the pure functions: reading and writing tables, the bits of the linear part
of `affine`, and handier forms of the two table generators. -/

namespace Sys2Proof.Machine

/-! ## Bytes -/

theorem mem_allBytes (x : Byte) : x ∈ allBytes := by
  refine List.mem_map.mpr ⟨x.toNat, List.mem_range.mpr x.isLt, ?_⟩
  simp

/-! ## Tables -/

theorem tableRead_tableWrite (t : Table) (a b v : Byte) :
    tableRead (tableWrite t a v) b = if a = b then v else tableRead t b := by
  unfold tableRead tableWrite
  rw [Vector.getElem_set]
  simp only [BitVec.toNat_inj]

@[simp] theorem tableRead_tableWrite_same (t : Table) (a v : Byte) :
    tableRead (tableWrite t a v) a = v := by
  simp [tableRead_tableWrite]

theorem tableRead_tableWrite_other (t : Table) {a b : Byte} (v : Byte) (h : a ≠ b) :
    tableRead (tableWrite t a v) b = tableRead t b := by
  simp [tableRead_tableWrite, h]

/-- Two tables that read alike everywhere are equal. -/
theorem table_ext {t u : Table} (h : ∀ a, tableRead t a = tableRead u a) : t = u := by
  refine Vector.ext fun i hi => ?_
  have := h (BitVec.ofNat 8 i)
  simpa [tableRead, Nat.mod_eq_of_lt hi] using this

/-- R140, entry by entry. -/
@[simp] theorem tableRead_generateSbox (m : Mat) (c x : Byte) :
    tableRead (generateSbox m c) x = affine (ginv x) m c := by
  simp [tableRead, generateSbox]

/-- The fold of `generate_inverse` over any list of indices, in the handier form: the last index of
the list that the table maps to `y`, or what stood there before. -/
theorem tableRead_foldl_inverse (t : Table) (l : List Byte) (u : Table) (y : Byte) :
    tableRead (l.foldl (fun u i => tableWrite u (tableRead t i) i) u) y =
      (l.reverse.find? fun i => tableRead t i == y).getD (tableRead u y) := by
  induction l generalizing u with
  | nil => simp
  | cons i l ih =>
    rw [List.foldl_cons, ih, List.reverse_cons, List.find?_append, tableRead_tableWrite]
    cases l.reverse.find? (fun i => tableRead t i == y) with
    | some j => simp
    | none => by_cases h : tableRead t i = y <;> simp [h]

/-- `generate_inverse` (R142) in the handier form. -/
theorem tableRead_generateInverse (t : Table) (y : Byte) :
    tableRead (generateInverse t) y =
      (allBytes.reverse.find? fun i => tableRead t i == y).getD 0x00 := by
  rw [generateInverse, tableRead_foldl_inverse]
  simp [tableRead]

/-! ## The affine transform -/

/-- Setting bit after bit, as the outer loop of R120 does. -/
theorem getLsbD_foldl_setBits (f : Fin 8 → Bool) (l : List (Fin 8)) (r : Byte) (k : Fin 8) :
    (l.foldl (fun r i => r ||| ((BitVec.ofBool (f i)).setWidth 8 <<< i.val)) r).getLsbD k =
      (r.getLsbD k || (l.contains k && f k)) := by
  induction l generalizing r with
  | nil => simp
  | cons i l ih =>
    have bit : ((BitVec.ofBool (f i)).setWidth 8 <<< i.val).getLsbD k = (decide (k = i) && f k) := by
      simp only [BitVec.getLsbD_shiftLeft, BitVec.getLsbD_setWidth, BitVec.getLsbD_ofBool]
      rcases lt_trichotomy k i with h | rfl | h
      · simp [h.ne, Fin.lt_def.mp h]
      · simp
      · have : ¬ (k.val - i.val = 0) := by have := Fin.lt_def.mp h; omega
        simp [this, h.ne']
    rw [List.foldl_cons, ih, BitVec.getLsbD_or, bit, List.contains_cons]
    by_cases h : k = i <;> cases r.getLsbD k <;> cases f k <;> simp [h, beq_iff_eq]

/-- Bit `i` of the linear part is the parity of row `i` with the input (R120). -/
theorem getLsbD_linear (m : Mat) (x : Byte) (i : Fin 8) :
    (linear m x).getLsbD i = rowParity m[i] x := by
  unfold linear
  rw [getLsbD_foldl_setBits (fun i => rowParity m[i] x)]
  simp

theorem getLsbD_affine (x : Byte) (m : Mat) (c : Byte) (i : Fin 8) :
    (affine x m c).getLsbD i = (rowParity m[i] x ^^ c.getLsbD i) := by
  rw [affine, BitVec.getLsbD_xor, getLsbD_linear]

end Sys2Proof.Machine
end

