-- ==== Sys2Proof/Laws/Config.lean ====
section
/-! SUPPORT. What is known of the implementation parameters, whatever the implementation chose. -/

namespace Sys2Proof

open Sys2Proof.Machine

/-- LAT is at least 1 (R13). -/
theorem Config.lat_pos (op : Byte) : 1 ≤ Config.lat op := Nat.le_add_left 1 _

/-- RESET_AUTO_INIT at its default (R12). -/
@[simp] theorem Config.resetAutoInit_eq : Config.resetAutoInit = true := rfl

theorem Config.invertible_identityMat : Config.invertible identityMat = true := by
  decide +kernel

/-- The default matrix passes the model's test of R10's constraint. -/
theorem Config.invertible_defaultMatrix : Config.invertible Config.defaultMatrix = true := by
  unfold Config.defaultMatrix
  split
  · assumption
  · exact Config.invertible_identityMat

/-- What the test says: only 0 is mapped to 0. -/
theorem Config.invertible_iff (m : Mat) :
    Config.invertible m = true ↔ ∀ x, linear m x = 0x00 → x = 0x00 := by
  simp only [Config.invertible, List.all_eq_true, Bool.or_eq_true, beq_iff_eq, bne_iff_ne, ne_eq]
  exact ⟨fun h x hx => (h x (mem_allBytes x)).resolve_right (fun h' => h' hx),
    fun h x _ => or_iff_not_imp_right.mpr fun h' => h x (not_not.mp h')⟩

end Sys2Proof
end

