-- ==== Sys2Proof/Laws/PerInstr.lean ====
section
/-! SUPPORT. The packed word field by field (R62), and the family EncodeLegal: the word the encoder
gives a command is legal by the opcode map (R65), command by command. -/

namespace Sys2Proof

/-! ## The packed word -/

/-- Each bit of a packed word. -/
theorem getLsbD_packWord (op : Byte) (row : Fin 8) (b a : Byte) (k : Nat) :
    (packWord op row b a).getLsbD k =
      if k < 8 then a.getLsbD k
      else if k < 16 then b.getLsbD (k - 8)
      else if k < 19 then (BitVec.ofFin (w := 3) row).getLsbD (k - 16)
      else if k < 24 then false
      else op.getLsbD (k - 24) := by
  simp only [packWord, BitVec.getLsbD_append]
  split_ifs
  all_goals first
    | omega
    | rfl
    | simp

@[simp] theorem opField_packWord (op : Byte) (row : Fin 8) (b a : Byte) :
    opField (packWord op row b a) = op := by
  refine BitVec.eq_of_getLsbD_eq fun i hi => ?_
  have h8 : ¬ 24 + i < 8 := by omega
  have h16 : ¬ 24 + i < 16 := by omega
  have h19 : ¬ 24 + i < 19 := by omega
  simp [opField, getLsbD_packWord, hi, h8, h16, h19]

@[simp] theorem bField_packWord (op : Byte) (row : Fin 8) (b a : Byte) :
    bField (packWord op row b a) = b := by
  refine BitVec.eq_of_getLsbD_eq fun i hi => ?_
  have : 8 + i < 16 := by omega
  simp [bField, getLsbD_packWord, hi, this]

@[simp] theorem aField_packWord (op : Byte) (row : Fin 8) (b a : Byte) :
    aField (packWord op row b a) = a := by
  refine BitVec.eq_of_getLsbD_eq fun i hi => ?_
  simp [aField, getLsbD_packWord, hi]

@[simp] theorem rowField_packWord (op : Byte) (row : Fin 8) (b a : Byte) :
    rowField (packWord op row b a) = row := by
  have : (packWord op row b a).extractLsb' 16 3 = BitVec.ofFin (w := 3) row := by
    refine BitVec.eq_of_getLsbD_eq fun i hi => ?_
    have h8 : ¬ 16 + i < 8 := by omega
    have h19 : 16 + i < 19 := by omega
    simp [getLsbD_packWord, hi, h8, h19]
  simp [rowField, this]

/-- Masking field by field. -/
theorem fields_and (op mop : Byte) (rsv mrsv : BitVec 5) (row mrow : BitVec 3) (b mb a ma : Byte) :
    (op ++ rsv ++ row ++ b ++ a) &&& (mop ++ mrsv ++ mrow ++ mb ++ ma) =
      (op &&& mop) ++ (rsv &&& mrsv) ++ (row &&& mrow) ++ (b &&& mb) ++ (a &&& ma) := by
  simp only [BitVec.and_append]

/-- A packed word under a mask that keeps OP and RSV, and of each operand field the bits of `mrow`,
`mb` and `ma`. -/
theorem packWord_and (op : Byte) (row : Fin 8) (b a : Byte) (mrow : BitVec 3) (mb ma : Byte) :
    packWord op row b a &&& (0xFF#8 ++ 0x1F#5 ++ mrow ++ mb ++ ma) =
      (op &&& 0xFF#8) ++ (0#5 &&& 0x1F#5) ++ (BitVec.ofFin (w := 3) row &&& mrow) ++ (b &&& mb) ++
        (a &&& ma) :=
  fields_and op 0xFF 0 0x1F (BitVec.ofFin row) mrow b mb a ma

theorem legalWord_of_row {w : Word32} (r : OpcodeRow) (hr : r ∈ opcodeMap)
    (h : w &&& r.mask = r.pattern) : legalWord w = true :=
  List.any_eq_true.mpr ⟨r, hr, by simp [OpcodeRow.accepts, h]⟩

end Sys2Proof

namespace Sys2Proof.Laws.EncodeLegal

/-- The encoder's word matches a row of the opcode map. -/
def Statement (i : Instr) : Prop := legalWord (encode i) = true

theorem nop : Statement .nop := rfl

theorem gmul (a b : Byte) : Statement (.gmul a b) :=
  legalWord_of_row ⟨"GMUL", 0x01000000, 0xFFFF0000⟩ (by decide)
    ((packWord_and 0x01 0 b a 7 0 0).trans (by simp))

theorem ginv (a : Byte) : Statement (.ginv a) :=
  legalWord_of_row ⟨"GINV", 0x02000000, 0xFFFFFF00⟩ (by decide)
    ((packWord_and 0x02 0 0 a 7 0xFF 0).trans (by simp))

theorem affine (a : Byte) : Statement (.affine a) :=
  legalWord_of_row ⟨"AFFINE", 0x03000000, 0xFFFFFF00⟩ (by decide)
    ((packWord_and 0x03 0 0 a 7 0xFF 0).trans (by simp))

theorem sbent (a : Byte) : Statement (.sbent a) :=
  legalWord_of_row ⟨"SBENT", 0x04000000, 0xFFFFFF00⟩ (by decide)
    ((packWord_and 0x04 0 0 a 7 0xFF 0).trans (by simp))

theorem wrmat (row : Fin 8) (a : Byte) : Statement (.wrmat row a) :=
  legalWord_of_row ⟨"WRMAT", 0x05000000, 0xFFF8FF00⟩ (by decide)
    ((packWord_and 0x05 row 0 a 0 0xFF 0).trans (by simp))

theorem rdmat (row : Fin 8) : Statement (.rdmat row) :=
  legalWord_of_row ⟨"RDMAT", 0x06000000, 0xFFF8FFFF⟩ (by decide)
    ((packWord_and 0x06 row 0 0 0 0xFF 0xFF).trans (by simp))

theorem wrconst (a : Byte) : Statement (.wrconst a) :=
  legalWord_of_row ⟨"WRCONST", 0x07000000, 0xFFFFFF00⟩ (by decide)
    ((packWord_and 0x07 0 0 a 7 0xFF 0).trans (by simp))

theorem rdconst : Statement .rdconst := rfl

theorem build : Statement .build := rfl

theorem init : Statement .init := rfl

theorem sub (a : Byte) : Statement (.sub a) :=
  legalWord_of_row ⟨"SUB", 0x0B000000, 0xFFFFFF00⟩ (by decide)
    ((packWord_and 0x0B 0 0 a 7 0xFF 0).trans (by simp))

theorem invsub (a : Byte) : Statement (.invsub a) :=
  legalWord_of_row ⟨"INVSUB", 0x0C000000, 0xFFFFFF00⟩ (by decide)
    ((packWord_and 0x0C 0 0 a 7 0xFF 0).trans (by simp))

theorem rdstat : Statement .rdstat := rfl

end Sys2Proof.Laws.EncodeLegal
end

