-- ==== Sys2Proof/Laws/State.lean ====
section
/-! SUPPORT. For each shared operation that updates the state, what each field holds after it: one
simp lemma per field, so that no later proof unfolds a record update. -/

namespace Sys2Proof.Machine

/-! ## writeMat -/

@[simp] theorem writeMat_mat (row : Fin 8) (v : Byte) (s : State) :
    (writeMat row v s).mat = s.mat.set row v := rfl
@[simp] theorem writeMat_const (row : Fin 8) (v : Byte) (s : State) :
    (writeMat row v s).const = s.const := rfl
@[simp] theorem writeMat_sbox (row : Fin 8) (v : Byte) (s : State) :
    (writeMat row v s).sbox = s.sbox := rfl
@[simp] theorem writeMat_invsbox (row : Fin 8) (v : Byte) (s : State) :
    (writeMat row v s).invsbox = s.invsbox := rfl
@[simp] theorem writeMat_valid (row : Fin 8) (v : Byte) (s : State) :
    (writeMat row v s).valid = s.valid := rfl
@[simp] theorem writeMat_port (row : Fin 8) (v : Byte) (s : State) :
    (writeMat row v s).port = s.port := rfl
@[simp] theorem writeMat_host (row : Fin 8) (v : Byte) (s : State) :
    (writeMat row v s).host = s.host := rfl
@[simp] theorem writeMat_taken (row : Fin 8) (v : Byte) (s : State) :
    (writeMat row v s).taken = s.taken := rfl
@[simp] theorem writeMat_fresh (row : Fin 8) (v : Byte) (s : State) :
    (writeMat row v s).fresh = s.fresh := rfl

/-! ## writeConst -/

@[simp] theorem writeConst_mat (v : Byte) (s : State) : (writeConst v s).mat = s.mat := rfl
@[simp] theorem writeConst_const (v : Byte) (s : State) : (writeConst v s).const = v := rfl
@[simp] theorem writeConst_sbox (v : Byte) (s : State) : (writeConst v s).sbox = s.sbox := rfl
@[simp] theorem writeConst_invsbox (v : Byte) (s : State) :
    (writeConst v s).invsbox = s.invsbox := rfl
@[simp] theorem writeConst_valid (v : Byte) (s : State) : (writeConst v s).valid = s.valid := rfl
@[simp] theorem writeConst_port (v : Byte) (s : State) : (writeConst v s).port = s.port := rfl
@[simp] theorem writeConst_host (v : Byte) (s : State) : (writeConst v s).host = s.host := rfl
@[simp] theorem writeConst_taken (v : Byte) (s : State) : (writeConst v s).taken = s.taken := rfl
@[simp] theorem writeConst_fresh (v : Byte) (s : State) : (writeConst v s).fresh = s.fresh := rfl

/-! ## writeValid -/

@[simp] theorem writeValid_mat (b : Bool) (s : State) : (writeValid b s).mat = s.mat := rfl
@[simp] theorem writeValid_const (b : Bool) (s : State) : (writeValid b s).const = s.const := rfl
@[simp] theorem writeValid_sbox (b : Bool) (s : State) : (writeValid b s).sbox = s.sbox := rfl
@[simp] theorem writeValid_invsbox (b : Bool) (s : State) :
    (writeValid b s).invsbox = s.invsbox := rfl
@[simp] theorem writeValid_valid (b : Bool) (s : State) : (writeValid b s).valid = b := rfl
@[simp] theorem writeValid_port (b : Bool) (s : State) : (writeValid b s).port = s.port := rfl
@[simp] theorem writeValid_host (b : Bool) (s : State) : (writeValid b s).host = s.host := rfl
@[simp] theorem writeValid_taken (b : Bool) (s : State) : (writeValid b s).taken = s.taken := rfl
@[simp] theorem writeValid_fresh (b : Bool) (s : State) : (writeValid b s).fresh = s.fresh := rfl

/-! ## respond -/

@[simp] theorem respond_mat (st : Status) (d : Byte) (s : State) :
    (respond st d s).mat = s.mat := rfl
@[simp] theorem respond_const (st : Status) (d : Byte) (s : State) :
    (respond st d s).const = s.const := rfl
@[simp] theorem respond_sbox (st : Status) (d : Byte) (s : State) :
    (respond st d s).sbox = s.sbox := rfl
@[simp] theorem respond_invsbox (st : Status) (d : Byte) (s : State) :
    (respond st d s).invsbox = s.invsbox := rfl
@[simp] theorem respond_valid (st : Status) (d : Byte) (s : State) :
    (respond st d s).valid = s.valid := rfl
@[simp] theorem respond_port (st : Status) (d : Byte) (s : State) :
    (respond st d s).port = .responding (respWord st d) := rfl
@[simp] theorem respond_host (st : Status) (d : Byte) (s : State) :
    (respond st d s).host = s.host := rfl
@[simp] theorem respond_taken (st : Status) (d : Byte) (s : State) :
    (respond st d s).taken = s.taken := rfl
@[simp] theorem respond_fresh (st : Status) (d : Byte) (s : State) :
    (respond st d s).fresh = s.fresh := rfl

/-! ## raiseIllegal -/

@[simp] theorem raiseIllegal_mat (c : IllegalCause) (s : State) :
    (raiseIllegal c s).mat = s.mat := rfl
@[simp] theorem raiseIllegal_const (c : IllegalCause) (s : State) :
    (raiseIllegal c s).const = s.const := rfl
@[simp] theorem raiseIllegal_sbox (c : IllegalCause) (s : State) :
    (raiseIllegal c s).sbox = s.sbox := rfl
@[simp] theorem raiseIllegal_invsbox (c : IllegalCause) (s : State) :
    (raiseIllegal c s).invsbox = s.invsbox := rfl
@[simp] theorem raiseIllegal_valid (c : IllegalCause) (s : State) :
    (raiseIllegal c s).valid = s.valid := rfl
@[simp] theorem raiseIllegal_port (c : IllegalCause) (s : State) :
    (raiseIllegal c s).port = .responding (respWord .illegal c.code) := rfl
@[simp] theorem raiseIllegal_host (c : IllegalCause) (s : State) :
    (raiseIllegal c s).host = s.host := rfl
@[simp] theorem raiseIllegal_taken (c : IllegalCause) (s : State) :
    (raiseIllegal c s).taken = s.taken := rfl
@[simp] theorem raiseIllegal_fresh (c : IllegalCause) (s : State) :
    (raiseIllegal c s).fresh = s.fresh := rfl

/-! ## replaceTables -/

@[simp] theorem replaceTables_mat (t : Table) (s : State) : (replaceTables t s).mat = s.mat := by
  dsimp only [replaceTables]
@[simp] theorem replaceTables_const (t : Table) (s : State) :
    (replaceTables t s).const = s.const := by
  dsimp only [replaceTables]
@[simp] theorem replaceTables_sbox (t : Table) (s : State) : (replaceTables t s).sbox = t := by
  dsimp only [replaceTables]
@[simp] theorem replaceTables_invsbox (t : Table) (s : State) :
    (replaceTables t s).invsbox = generateInverse t := by
  dsimp only [replaceTables]
@[simp] theorem replaceTables_valid (t : Table) (s : State) :
    (replaceTables t s).valid = s.valid := by
  dsimp only [replaceTables]
@[simp] theorem replaceTables_port (t : Table) (s : State) :
    (replaceTables t s).port = s.port := by
  dsimp only [replaceTables]
@[simp] theorem replaceTables_host (t : Table) (s : State) :
    (replaceTables t s).host = s.host := by
  dsimp only [replaceTables]
@[simp] theorem replaceTables_taken (t : Table) (s : State) :
    (replaceTables t s).taken = s.taken := by
  dsimp only [replaceTables]
@[simp] theorem replaceTables_fresh (t : Table) (s : State) :
    (replaceTables t s).fresh = s.fresh := by
  dsimp only [replaceTables]

/-! ## activate -/

@[simp] theorem activate_mat (m : Mat) (c : Byte) (s : State) : (activate m c s).mat = s.mat := by
  dsimp only [activate, writeValid, replaceTables]
@[simp] theorem activate_const (m : Mat) (c : Byte) (s : State) :
    (activate m c s).const = s.const := by
  dsimp only [activate, writeValid, replaceTables]
@[simp] theorem activate_sbox (m : Mat) (c : Byte) (s : State) :
    (activate m c s).sbox = generateSbox m c := by
  dsimp only [activate, writeValid, replaceTables]
@[simp] theorem activate_invsbox (m : Mat) (c : Byte) (s : State) :
    (activate m c s).invsbox = generateInverse (generateSbox m c) := by
  dsimp only [activate, writeValid, replaceTables]
@[simp] theorem activate_valid (m : Mat) (c : Byte) (s : State) :
    (activate m c s).valid = true := by
  dsimp only [activate, writeValid, replaceTables]
@[simp] theorem activate_port (m : Mat) (c : Byte) (s : State) :
    (activate m c s).port = s.port := by
  dsimp only [activate, writeValid, replaceTables]
@[simp] theorem activate_host (m : Mat) (c : Byte) (s : State) :
    (activate m c s).host = s.host := by
  dsimp only [activate, writeValid, replaceTables]
@[simp] theorem activate_taken (m : Mat) (c : Byte) (s : State) :
    (activate m c s).taken = s.taken := by
  dsimp only [activate, writeValid, replaceTables]
@[simp] theorem activate_fresh (m : Mat) (c : Byte) (s : State) :
    (activate m c s).fresh = s.fresh := by
  dsimp only [activate, writeValid, replaceTables]

/-! ## activateDefault -/

@[simp] theorem activateDefault_mat (s : State) : (activateDefault s).mat = s.mat := by
  dsimp only [activateDefault, activate, writeValid, replaceTables]
@[simp] theorem activateDefault_const (s : State) : (activateDefault s).const = s.const := by
  dsimp only [activateDefault, activate, writeValid, replaceTables]
@[simp] theorem activateDefault_sbox (s : State) :
    (activateDefault s).sbox = generateSbox Config.defaultMatrix Config.defaultConstant := by
  dsimp only [activateDefault, activate, writeValid, replaceTables]
@[simp] theorem activateDefault_invsbox (s : State) :
    (activateDefault s).invsbox =
      generateInverse (generateSbox Config.defaultMatrix Config.defaultConstant) := by
  dsimp only [activateDefault, activate, writeValid, replaceTables]
@[simp] theorem activateDefault_valid (s : State) : (activateDefault s).valid = true := by
  dsimp only [activateDefault, activate, writeValid, replaceTables]
@[simp] theorem activateDefault_port (s : State) : (activateDefault s).port = s.port := by
  dsimp only [activateDefault, activate, writeValid, replaceTables]
@[simp] theorem activateDefault_host (s : State) : (activateDefault s).host = s.host := by
  dsimp only [activateDefault, activate, writeValid, replaceTables]
@[simp] theorem activateDefault_taken (s : State) : (activateDefault s).taken = s.taken := by
  dsimp only [activateDefault, activate, writeValid, replaceTables]
@[simp] theorem activateDefault_fresh (s : State) : (activateDefault s).fresh = s.fresh := by
  dsimp only [activateDefault, activate, writeValid, replaceTables]

/-! ## takeResponse -/

@[simp] theorem takeResponse_mat (r : Word10) (s : State) : (takeResponse r s).mat = s.mat := rfl
@[simp] theorem takeResponse_const (r : Word10) (s : State) :
    (takeResponse r s).const = s.const := rfl
@[simp] theorem takeResponse_sbox (r : Word10) (s : State) : (takeResponse r s).sbox = s.sbox := rfl
@[simp] theorem takeResponse_invsbox (r : Word10) (s : State) :
    (takeResponse r s).invsbox = s.invsbox := rfl
@[simp] theorem takeResponse_valid (r : Word10) (s : State) :
    (takeResponse r s).valid = s.valid := rfl
@[simp] theorem takeResponse_port (r : Word10) (s : State) : (takeResponse r s).port = .ready := rfl
@[simp] theorem takeResponse_host (r : Word10) (s : State) : (takeResponse r s).host = s.host := rfl
@[simp] theorem takeResponse_taken (r : Word10) (s : State) :
    (takeResponse r s).taken = s.taken ++ [r] := rfl
@[simp] theorem takeResponse_fresh (r : Word10) (s : State) :
    (takeResponse r s).fresh = s.fresh := rfl

/-! ## assertReset -/

@[simp] theorem assertReset_mat (s : State) : (assertReset s).mat = Config.defaultMatrix := rfl
@[simp] theorem assertReset_const (s : State) :
    (assertReset s).const = Config.defaultConstant := rfl
@[simp] theorem assertReset_sbox (s : State) :
    (assertReset s).sbox = Config.sboxInReset s.fresh := rfl
@[simp] theorem assertReset_invsbox (s : State) :
    (assertReset s).invsbox = Config.invsboxInReset s.fresh := rfl
@[simp] theorem assertReset_valid (s : State) : (assertReset s).valid = false := rfl
@[simp] theorem assertReset_port (s : State) : (assertReset s).port = .inReset := rfl
@[simp] theorem assertReset_host (s : State) : (assertReset s).host = s.host := rfl
@[simp] theorem assertReset_taken (s : State) : (assertReset s).taken = s.taken := rfl
@[simp] theorem assertReset_fresh (s : State) : (assertReset s).fresh = s.fresh + 1 := rfl

/-! ## ensureInitialized -/

/-- All that `ensureInitialized` can do: nothing where VALID is 1, the default pair where it is 0. -/
theorem ensureInitialized_eq (s : State) :
    (s.valid = true ∧ ensureInitialized s = s) ∨
      (s.valid = false ∧ ensureInitialized s = activateDefault s) := by
  cases h : s.valid <;> simp [ensureInitialized, h]

theorem ensureInitialized_of_valid {s : State} (h : s.valid = true) : ensureInitialized s = s := by
  simp [ensureInitialized, h]

theorem ensureInitialized_of_not_valid {s : State} (h : s.valid = false) :
    ensureInitialized s = activateDefault s := by
  simp [ensureInitialized, h]

@[simp] theorem ensureInitialized_valid (s : State) : (ensureInitialized s).valid = true := by
  obtain ⟨h, e⟩ | ⟨_, e⟩ := ensureInitialized_eq s <;> simp [*]

@[simp] theorem ensureInitialized_mat (s : State) : (ensureInitialized s).mat = s.mat := by
  obtain ⟨_, e⟩ | ⟨_, e⟩ := ensureInitialized_eq s <;> simp [e]

@[simp] theorem ensureInitialized_const (s : State) : (ensureInitialized s).const = s.const := by
  obtain ⟨_, e⟩ | ⟨_, e⟩ := ensureInitialized_eq s <;> simp [e]

@[simp] theorem ensureInitialized_port (s : State) : (ensureInitialized s).port = s.port := by
  obtain ⟨_, e⟩ | ⟨_, e⟩ := ensureInitialized_eq s <;> simp [e]

@[simp] theorem ensureInitialized_host (s : State) : (ensureInitialized s).host = s.host := by
  obtain ⟨_, e⟩ | ⟨_, e⟩ := ensureInitialized_eq s <;> simp [e]

@[simp] theorem ensureInitialized_taken (s : State) : (ensureInitialized s).taken = s.taken := by
  obtain ⟨_, e⟩ | ⟨_, e⟩ := ensureInitialized_eq s <;> simp [e]

@[simp] theorem ensureInitialized_fresh (s : State) : (ensureInitialized s).fresh = s.fresh := by
  obtain ⟨_, e⟩ | ⟨_, e⟩ := ensureInitialized_eq s <;> simp [e]

/-! ## completeResetWith -/

@[simp] theorem completeResetWith_mat (b : Bool) (s : State) :
    (completeResetWith b s).mat = s.mat := by
  cases b <;> simp [completeResetWith]

@[simp] theorem completeResetWith_const (b : Bool) (s : State) :
    (completeResetWith b s).const = s.const := by
  cases b <;> simp [completeResetWith]

@[simp] theorem completeResetWith_host (b : Bool) (s : State) :
    (completeResetWith b s).host = s.host := by
  cases b <;> simp [completeResetWith]

@[simp] theorem completeResetWith_taken (b : Bool) (s : State) :
    (completeResetWith b s).taken = s.taken := by
  cases b <;> simp [completeResetWith]

@[simp] theorem completeResetWith_fresh (b : Bool) (s : State) :
    (completeResetWith b s).fresh = s.fresh := by
  cases b <;> simp [completeResetWith]

@[simp] theorem completeResetWith_port (b : Bool) (s : State) :
    (completeResetWith b s).port = .ready := rfl

@[simp] theorem completeResetWith_valid (b : Bool) (s : State) :
    (completeResetWith b s).valid = (b || s.valid) := by
  cases b <;> simp [completeResetWith]

@[simp] theorem completeResetWith_true (s : State) :
    completeResetWith true s = { activateDefault s with port := .ready } := rfl

@[simp] theorem completeResetWith_false (s : State) :
    completeResetWith false s = { s with port := .ready } := rfl

end Sys2Proof.Machine
end

