-- ==== Sys2Proof/Laws/Step.lean ====
section
/-! SUPPORT. What executing a word and one step can do, said once: the inversion lemmas that later
proofs cite instead of unfolding `executeWord` and `clockEdge`. -/

namespace Sys2Proof.Machine

theorem executeWord_of_ok {w : Word32} {i : Instr} (h : decode w = .ok i) (s : State) :
    executeWord w s = exec i s := by
  simp [executeWord, h]

theorem executeWord_of_error {w : Word32} {c : IllegalCause} (h : decode w = .error c) (s : State) :
    executeWord w s = .next (raiseIllegal c s) := by
  simp [executeWord, h]

/-- All that executing a word can do. -/
theorem executeWord_cases (w : Word32) (s : State) :
    (∃ i, decode w = .ok i ∧ executeWord w s = exec i s) ∨
      ∃ c, decode w = .error c ∧ executeWord w s = .next (raiseIllegal c s) := by
  cases h : decode w with
  | ok i => exact .inl ⟨i, rfl, executeWord_of_ok h s⟩
  | error c => exact .inr ⟨c, rfl, executeWord_of_error h s⟩

/-- All that an edge can do: reset, the reset sequence, accepting a command, taking a response, or
nothing, each with the condition under which it happens. -/
theorem clockEdgeWith_cases (auto : Bool) (s : State) :
    (∃ rest, s.host = .reset :: rest ∧
      clockEdgeWith auto s = .next (assertReset { s with host := rest })) ∨
    (rst s = false ∧ s.port = .inReset ∧ clockEdgeWith auto s = .next (completeResetWith auto s)) ∨
    (∃ w rest, s.host = .command w :: rest ∧ s.port = .ready ∧
      clockEdgeWith auto s = executeWord w { s with host := rest }) ∨
    (∃ r rest, s.host = .take :: rest ∧ s.port = .responding r ∧
      clockEdgeWith auto s = .next (takeResponse r { s with host := rest })) ∨
    (rst s = false ∧ s.port ≠ .inReset ∧ ¬ (cmdOffered s ≠ none ∧ cmdReady s = true) ∧
      ¬ (rspReady s = true ∧ rspOffered s ≠ none) ∧ clockEdgeWith auto s = .next s) := by
  unfold clockEdgeWith rst cmdOffered cmdReady rspReady rspOffered
  rcases hh : s.host with _ | ⟨_ | _ | _, rest⟩ <;> rcases hp : s.port with _ | _ | r <;> simp

/-- A step is an edge of the core with RESET_AUTO_INIT at its default. -/
theorem step_eq_clockEdgeWith (s : State) : step s = clockEdgeWith true s := rfl

/-- All that a step can do, from what an edge can do. -/
theorem step_cases (s : State) :
    (∃ rest, s.host = .reset :: rest ∧ step s = .next (assertReset { s with host := rest })) ∨
    (rst s = false ∧ s.port = .inReset ∧ step s = .next (completeResetWith true s)) ∨
    (∃ w rest, s.host = .command w :: rest ∧ s.port = .ready ∧
      step s = executeWord w { s with host := rest }) ∨
    (∃ r rest, s.host = .take :: rest ∧ s.port = .responding r ∧
      step s = .next (takeResponse r { s with host := rest })) ∨
    (rst s = false ∧ s.port ≠ .inReset ∧ ¬ (cmdOffered s ≠ none ∧ cmdReady s = true) ∧
      ¬ (rspReady s = true ∧ rspOffered s ≠ none) ∧ step s = .next s) :=
  clockEdgeWith_cases true s

theorem clockEdgeWith_of_reset (auto : Bool) {s : State} {rest : List HostAction}
    (h : s.host = .reset :: rest) :
    clockEdgeWith auto s = .next (assertReset { s with host := rest }) := by
  simp [clockEdgeWith, h]

theorem clockEdgeWith_of_inReset (auto : Bool) {s : State} (h : rst s = false)
    (hp : s.port = .inReset) : clockEdgeWith auto s = .next (completeResetWith auto s) := by
  unfold rst at h
  rcases hh : s.host with _ | ⟨_ | _ | _, rest⟩ <;> simp_all [clockEdgeWith]

theorem clockEdgeWith_of_command (auto : Bool) {s : State} {w : Word32} {rest : List HostAction}
    (hh : s.host = .command w :: rest) (hp : s.port = .ready) :
    clockEdgeWith auto s = executeWord w { s with host := rest } := by
  simp [clockEdgeWith, hh, hp]

theorem clockEdgeWith_of_take (auto : Bool) {s : State} {r : Word10} {rest : List HostAction}
    (hh : s.host = .take :: rest) (hp : s.port = .responding r) :
    clockEdgeWith auto s = .next (takeResponse r { s with host := rest }) := by
  simp [clockEdgeWith, hh, hp]

@[simp] theorem step_of_reset {s : State} {rest : List HostAction} (h : s.host = .reset :: rest) :
    step s = .next (assertReset { s with host := rest }) :=
  clockEdgeWith_of_reset true h

theorem step_of_command {s : State} {w : Word32} {rest : List HostAction}
    (hh : s.host = .command w :: rest) (hp : s.port = .ready) :
    step s = executeWord w { s with host := rest } :=
  clockEdgeWith_of_command true hh hp

theorem step_of_take {s : State} {r : Word10} {rest : List HostAction}
    (hh : s.host = .take :: rest) (hp : s.port = .responding r) :
    step s = .next (takeResponse r { s with host := rest }) :=
  clockEdgeWith_of_take true hh hp

end Sys2Proof.Machine
end

