-- ==== Sys2Proof/Tests/Slice0.lean ====
section
/-! SUPPORT. Tests of single steps, with expected values from the spec's examples and from
95_test_vectors.md (the section is named at each group), and for every statement that has hypotheses
a witness that meets them. -/

namespace Sys2Proof.Tests

open Sys2Proof Sys2Proof.Machine

/-! ## Small states -/

/-- The table that maps every byte to itself. -/
def identityTable : Table := Vector.ofFn fun x => BitVec.ofNat 8 x.val

/-- The table of 95 section 4.2, "ZM, 0x00": every entry 0x00. -/
def constTable : Table := Vector.replicate 256 0x00

/-- A ready core with the given staging registers, and the pair of the given table active. -/
def testState (m : Mat) (c : Byte) (t : Table) : State where
  mat := m
  const := c
  sbox := t
  invsbox := generateInverse t
  valid := true
  port := .ready
  host := []
  taken := []
  fresh := 0

theorem testState_pair (m : Mat) (c : Byte) (t : Table) :
    (testState m c t).invsbox = generateInverse (testState m c t).sbox := by
  dsimp only [testState]

/-- The example matrix and constant staged. -/
def staged : State := testState exampleMat 0x63 identityTable

/-- The same with VALID = 0. -/
def notBuilt : State := { staged with valid := false }

/-- The state after an outcome, if there is one. -/
def after : Host.Outcome State Fault Refusal → Option State
  | .next t => some t
  | _ => none

/-- The response to one command word, given as the opcode table numbers it. -/
def answer (s : State) (w : Nat) : Option Word10 :=
  (after (step (s.withFetchWord 32 w))).bind rspOffered

/-- The state after one command word. -/
def afterWord (s : State) (w : Nat) : Option State := after (step (s.withFetchWord 32 w))

/-! ## Ill-formed words and operands are refused (WellFormed; R64, R68, R71) -/

theorem test_illFormed_opcode : legalWord 0x0E000000 = false := by decide
theorem test_illFormed_rsv : legalWord 0x01800000 = false := by decide
theorem test_illFormed_unusedA : legalWord 0x06000001 = false := by decide
theorem test_illFormed_unusedB : legalWord 0x02000100 = false := by decide
theorem test_illFormed_unusedRow : legalWord 0x01010000 = false := by decide
theorem test_illFormed_byteOperand : byteInRange 256 = false ∧ byteInRange 255 = true := by decide
theorem test_illFormed_rowOperand : rowInRange 8 = false ∧ rowInRange 7 = true := by decide

/-- No word matches two rows of the opcode map (R65, R68). -/
theorem test_opcodeMap_disjoint :
    opcodeMap.Pairwise fun r q =>
      r.pattern &&& (r.mask &&& q.mask) ≠ q.pattern &&& (r.mask &&& q.mask) := by
  decide

/-! ## Decoding: one word per command, from the patterns of R65 -/

theorem test_decode_nop : decode 0b00000000000000000000000000000000#32 = .ok .nop := by decide
theorem test_decode_gmul :
    decode 0b00000001000000001010101111001101#32 = .ok (.gmul 0xCD 0xAB) := by decide
theorem test_decode_ginv :
    decode 0b00000010000000000000000001010011#32 = .ok (.ginv 0x53) := by decide
theorem test_decode_affine :
    decode 0b00000011000000000000000011001010#32 = .ok (.affine 0xCA) := by decide
theorem test_decode_sbent :
    decode 0b00000100000000000000000001111111#32 = .ok (.sbent 0x7F) := by decide
theorem test_decode_wrmat :
    decode 0b00000101000001100000000010001111#32 = .ok (.wrmat 6 0x8F) := by decide
theorem test_decode_rdmat :
    decode 0b00000110000001110000000000000000#32 = .ok (.rdmat 7) := by decide
theorem test_decode_wrconst :
    decode 0b00000111000000000000000001100011#32 = .ok (.wrconst 0x63) := by decide
theorem test_decode_rdconst :
    decode 0b00001000000000000000000000000000#32 = .ok .rdconst := by decide
theorem test_decode_build : decode 0b00001001000000000000000000000000#32 = .ok .build := by decide
theorem test_decode_init : decode 0b00001010000000000000000000000000#32 = .ok .init := by decide
theorem test_decode_sub :
    decode 0b00001011000000000000000001001000#32 = .ok (.sub 0x48) := by decide
theorem test_decode_invsub :
    decode 0b00001100000000000000000001010010#32 = .ok (.invsub 0x52) := by decide
theorem test_decode_rdstat :
    decode 0b00001101000000000000000000000000#32 = .ok .rdstat := by decide

/-! ## Encoding, against the words of 95_test_vectors.md -/

theorem test_encode_gmul : encode (.gmul 0x57 0x83) = 0x01008357 := by decide
theorem test_encode_wrmat : encode (.wrmat 3 0x8F) = 0x0503008F := by decide
theorem test_decodeTableWord : decodeTableWord 32 0x0C0000FF = some (.invsub 0xFF) := by decide

/-! ## Illegal words (95 section 7) -/

theorem test_illegal_firstUndefined : answer staged 0x0E000000 = some 0x101 := by decide
theorem test_illegal_priority : answer staged 0xFFFFFFFF = some 0x101 := by decide
theorem test_illegal_nopBit : answer staged 0x00000001 = some 0x102 := by decide
theorem test_illegal_wrmatRsv : answer staged 0x05080000 = some 0x102 := by decide
theorem test_illegal_wrmatKeepsMat :
    (afterWord staged 0x05080000).map (·.mat) = some exampleMat := by decide

/-! ## Commands (95 sections 2 to 6) -/

theorem test_nop : answer notBuilt 0x00000000 = some 0x000 := by decide
theorem test_nop_doesNotInitialise :
    (afterWord notBuilt 0x00000000).map (·.valid) = some false := by decide
theorem test_gmul : answer staged 0x01008357 = some 0x0C1 := by decide
theorem test_gmul_reduction : answer staged 0x01000280 = some 0x01B := by decide
theorem test_ginv : answer staged 0x02000053 = some 0x0CA := by decide
theorem test_ginv_zero : answer staged 0x02000000 = some 0x000 := by decide
theorem test_affine : answer staged 0x030000CA = some 0x0ED := by decide
/-- Row 7 selects input bit 0, so only output bit 7 is set (95 section 3.1). -/
theorem test_affine_bitWeight :
    answer { staged with mat := #v[0, 0, 0, 0, 0, 0, 0, 0x01], const := 0x00 } 0x03000001 =
      some 0x080 := by
  decide
theorem test_sbent : answer staged 0x04000053 = some 0x0ED := by decide +kernel
theorem test_sbent_top : answer staged 0x040000FF = some 0x016 := by decide
theorem test_wrmat :
    (afterWord { staged with mat := zeroMat } 0x0503008F).map (·.mat) =
      some #v[0, 0, 0, 0x8F, 0, 0, 0, 0] := by
  decide
theorem test_wrmat_tablesUnchanged :
    (afterWord staged 0x05030000).map (fun t => tableRead t.sbox 0x53) = some 0x53 := by
  decide +kernel
theorem test_rdmat : answer staged 0x06030000 = some 0x08F := by decide
theorem test_rdmat_top : answer staged 0x06070000 = some 0x0F8 := by decide
theorem test_wrconst : (afterWord staged 0x07000000).map (·.const) = some 0x00 := by decide
theorem test_rdconst : answer staged 0x08000000 = some 0x063 := by decide
theorem test_rdconst_afterReset : answer State.reset 0x08000000 = some 0x063 := by decide
theorem test_build :
    (afterWord notBuilt 0x09000000).map (fun t => (t.valid, tableRead t.sbox 0x53)) =
      some (true, 0xED) := by
  decide +kernel
/-- The zero matrix: the last index wins (95 section 4.2, "ZM, 0xAB"). -/
theorem test_build_lastIndexWins :
    tableRead (generateInverse (generateSbox zeroMat 0xAB)) 0xAB = 0xFF := by
  rw [tableRead_generateInverse]
  decide +kernel
theorem test_init :
    (afterWord notBuilt 0x0A000000).map (fun t => (t.valid, t.mat, t.const)) =
      some (true, exampleMat, 0x63) := by
  decide
theorem test_sub :
    answer { staged with sbox := generateSbox exampleMat 0x63 } 0x0B000048 = some 0x052 := by
  decide +kernel
theorem test_sub_initialises :
    (afterWord notBuilt 0x0B000048).map (fun t => (t.valid, t.mat)) =
      some (true, exampleMat) := by
  decide
/-- INVSUB with the all-zero table active: 95 section 9, P3 lines 12 and 13. -/
theorem test_invsub_lastIndexWins :
    tableRead (generateInverse constTable) 0x00 = 0xFF := by
  rw [tableRead_generateInverse]
  decide
theorem test_invsub_sentinel : tableRead (generateInverse constTable) 0x01 = 0x00 := by
  rw [tableRead_generateInverse]
  decide
theorem test_rdstat : answer staged 0x0D000000 = some 0x001 := by decide
theorem test_rdstat_notBuilt : answer notBuilt 0x0D000000 = some 0x000 := by decide

/-! ## The ports and reset (R61, R240, R242) -/

theorem test_take :
    (after (step { staged with port := .responding 0x0C1, host := [.take] })).map
      (fun t => (t.port, t.taken)) = some (.ready, [0x0C1]) := by
  decide
/-- A command is not accepted while another is outstanding. -/
theorem test_busy :
    (after (step { staged with port := .responding 0x0C1, host := [.command 0x07000000] })).map
      (fun t => (t.const, t.host)) = some (0x63, [.command 0x07000000]) := by
  decide
/-- A reset during a command: the response is lost (R240). -/
theorem test_reset_abandons :
    (after (step { staged with port := .responding 0x0C1, host := [.reset] })).map
      (fun t => (t.valid, t.port, t.taken, t.const)) = some (false, .inReset, [], 0x63) := by
  decide
/-- Right after reset VALID is 1, the parameter's default (R12, R242). -/
theorem test_reset_default : answer State.reset 0x0D000000 = some 0x001 := by decide
theorem test_reset_autoInit :
    (completeResetWith true notBuilt).valid = true ∧
      (completeResetWith false notBuilt).valid = false := by
  decide

/-! ## The assembler (R71, R72) -/

theorem test_assemble_line :
    assemble "GMUL 0x57, 0x83 ; product".toList = some [0x01008357] := by decide
theorem test_assemble_text :
    assemble "WRMAT 3, 143\n; note\nRDSTAT".toList = some [0x0503008F, 0x0D000000] := by
  decide
theorem test_assemble_hexCase :
    assemble "SUB 0xfE\nSUB 254".toList = some [0x0B0000FE, 0x0B0000FE] := by decide
theorem test_assemble_rejects :
    assemble "SUB 256".toList = none ∧ assemble "RDMAT 8".toList = none ∧
      assemble "RDMAT 0x3".toList = none ∧ assemble "GINV".toList = none ∧
      assemble "SUB 1F".toList = none ∧ assemble "SUB 0x".toList = none := by
  decide
theorem test_assemble_ldmat :
    (assemble "LDMAT 0xF1, 0xE3, 0xC7, 0x8F, 0x1F, 0x3E, 0x7C, 0xF8, 0x63".toList).map
      (fun ws => ws.drop 7) = some [0x050700F8, 0x07000063] := by
  decide

/-! ## Witnesses: each statement's hypotheses can be met

`witness_<statement>`: a concrete state and operands that meet all hypotheses of a clause together,
one conjunct for each clause that has hypotheses. -/

theorem tableRead_identityTable (x : Byte) : tableRead identityTable x = x := by
  simp [tableRead, identityTable]

theorem identityTable_bijective : bijectiveTable identityTable := by
  have : tableRead identityTable = id := funext tableRead_identityTable
  unfold bijectiveTable
  rw [this]
  exact Function.bijective_id

theorem tableRead_constTable (x : Byte) : tableRead constTable x = 0x00 := by
  simp [tableRead, constTable]

/-- A ready core to which the word is offered. -/
def offered (w : Word32) (rest : List HostAction) : State :=
  { staged with host := .command w :: rest }

theorem witness_StepRunsTheDecodedCommand :
    ((offered 0x01008357 []).port = .ready ∧
      (offered 0x01008357 []).host = .command 0x01008357 :: [] ∧
      decode 0x01008357 = .ok (.gmul 0x57 0x83)) ∧
    ((offered 0x0E000000 []).port = .ready ∧
      (offered 0x0E000000 []).host = .command 0x0E000000 :: [] ∧
      decode 0x0E000000 = .error .undefinedOpcode) :=
  ⟨⟨rfl, rfl, by decide⟩, rfl, rfl, by decide⟩

theorem witness_EncodeOfDecode : decode 0x050700F8 = .ok (.wrmat 7 0xF8) := by decide

theorem witness_LegalExactlyWhenMaskMatches :
    decode 0x0D000000 = .ok .rdstat ∧
      (⟨"RDSTAT", 0x0D000000, 0xFFFFFFFF⟩ : OpcodeRow) ∈ opcodeMap := by
  decide

theorem witness_DecoderIsTotalAndExact :
    0x0D < ((0x0E000000 : Word32).extractLsb' 24 8).toNat ∧
    (((0x0D000001 : Word32).extractLsb' 24 8).toNat ≤ 0x0D ∧ legalWord 0x0D000001 = false) ∧
    legalWord 0x0D000000 = true := by
  decide

theorem witness_CauseCodesAndPriority :
    0x0D < ((0xFFFFFFFF : Word32).extractLsb' 24 8).toNat ∧
    (((0x00000001 : Word32).extractLsb' 24 8).toNat ≤ 0x0D ∧ legalWord 0x00000001 = false) ∧
    ∃ t, executeWord 0x0E000000 staged = .next t ∧
      t.port = .responding (respWord .illegal 0x01) :=
  ⟨by decide, by decide, _, rfl, rfl⟩

theorem witness_UndefinedOpcodesChangeNothing :
    (offered 0x0E000000 []).port = .ready ∧
      (offered 0x0E000000 []).host = .command 0x0E000000 :: [] ∧
      0x0E ≤ ((0x0E000000 : Word32).extractLsb' 24 8).toNat :=
  ⟨rfl, rfl, by decide⟩

theorem witness_IllegalCommandLeavesNoTrace :
    (offered 0x00000001 [.take]).port = .ready ∧
      (offered 0x00000001 [.take]).host = .command 0x00000001 :: .take :: [] ∧
      decode 0x00000001 = .error .reservedField :=
  ⟨rfl, rfl, by decide⟩

theorem witness_OperandsOutOfRangeAreRejected : 7 < 8 := by decide

theorem witness_NopRespondsAndChangesNothing :
    (0x00000001 : Word32).extractLsb' 24 8 = 0x00 ∧ (0x00000001 : Word32) ≠ 0x00000000 := by
  decide

theorem witness_GmulRespondsTheProduct :
    (0x01800000 : Word32).extractLsb' 24 8 = 0x01 ∧
      (0x01800000 : Word32).extractLsb' 16 8 ≠ 0x00 := by
  decide

theorem witness_GinvRespondsTheInverse :
    (0x02000100 : Word32).extractLsb' 24 8 = 0x02 ∧
      (0x02000100 : Word32).extractLsb' 8 16 ≠ 0x0000 := by
  decide

theorem witness_AffineRespondsTheTransform :
    ((0x03010000 : Word32).extractLsb' 24 8 = 0x03 ∧
      (0x03010000 : Word32).extractLsb' 8 16 ≠ 0x0000) ∧
    (testState zeroMat 0x63 identityTable).mat = zeroMat ∧
    ((testState identityMat 0x00 identityTable).mat = identityMat ∧
      (testState identityMat 0x00 identityTable).const = 0x00) :=
  ⟨by decide, rfl, rfl, rfl⟩

theorem witness_SbentRespondsOneEntry :
    ((0x04800000 : Word32).extractLsb' 24 8 = 0x04 ∧
      (0x04800000 : Word32).extractLsb' 8 16 ≠ 0x0000) ∧
    ∃ t, exec .build staged = .next t :=
  ⟨by decide, _, rfl⟩

theorem witness_WrmatWritesOneRow :
    ((3 : Fin 8) ≠ 2) ∧
    ((0x05070100 : Word32).extractLsb' 24 8 = 0x05 ∧
      (0x05070100 : Word32).extractLsb' 8 8 ≠ 0x00) ∧
    ((0x05080000 : Word32).extractLsb' 24 8 = 0x05 ∧
      (0x05080000 : Word32).extractLsb' 19 5 ≠ 0x00) := by
  decide

theorem witness_RdmatReadsOneRow :
    ((0x06000001 : Word32).extractLsb' 24 8 = 0x06 ∧
      (0x06000001 : Word32).extractLsb' 0 16 ≠ 0x0000) ∧
    ((0x06080000 : Word32).extractLsb' 24 8 = 0x06 ∧
      (0x06080000 : Word32).extractLsb' 19 5 ≠ 0x00) ∧
    ∃ t, exec (.wrmat 3 0x8F) staged = .next t :=
  ⟨by decide, by decide, _, rfl⟩

theorem witness_WrconstWritesTheConstant :
    (0x07010000 : Word32).extractLsb' 24 8 = 0x07 ∧
      (0x07010000 : Word32).extractLsb' 8 16 ≠ 0x0000 := by
  decide

theorem witness_RdconstReadsTheConstant :
    (0x08000001 : Word32).extractLsb' 24 8 = 0x08 ∧
      (0x08000001 : Word32).extractLsb' 0 24 ≠ 0x000000 := by
  decide

theorem witness_BuildActivatesTheStagedPair :
    ((0x09000001 : Word32).extractLsb' 24 8 = 0x09 ∧
      (0x09000001 : Word32).extractLsb' 0 24 ≠ 0x000000) ∧
    (∃ t, exec .build staged = .next t) ∧
    ((testState zeroMat 0x00 identityTable).mat = zeroMat ∧
      ∃ t, exec .build (testState zeroMat 0x00 identityTable) = .next t) ∧
    (staged.mat = exampleMat ∧ staged.const = 0x63 ∧ ∃ t, exec .build staged = .next t) :=
  ⟨by decide, ⟨_, rfl⟩, ⟨rfl, _, rfl⟩, rfl, rfl, _, rfl⟩

theorem witness_InitActivatesTheDefaultPair :
    ((0x0A800000 : Word32).extractLsb' 24 8 = 0x0A ∧
      (0x0A800000 : Word32).extractLsb' 0 24 ≠ 0x000000) ∧
    ∃ t, exec .init staged = .next t :=
  ⟨by decide, _, rfl⟩

theorem witness_SubLooksUpTheSbox :
    staged.valid = true ∧ notBuilt.valid = false ∧
    ((0x0B000100 : Word32).extractLsb' 24 8 = 0x0B ∧
      (0x0B000100 : Word32).extractLsb' 8 16 ≠ 0x0000) ∧
    ∃ t, exec .init notBuilt = .next t :=
  ⟨rfl, rfl, by decide, _, rfl⟩

/-- A ready core with the all-zero table active. -/
def constBuilt : State := testState zeroMat 0x00 constTable

theorem witness_InvsubLooksUpTheInverse :
    staged.valid = true ∧ notBuilt.valid = false ∧
    ((0x0C000100 : Word32).extractLsb' 24 8 = 0x0C ∧
      (0x0C000100 : Word32).extractLsb' 8 16 ≠ 0x0000) ∧
    (constBuilt.valid = true ∧ constBuilt.invsbox = generateInverse constBuilt.sbox ∧
      ∀ x, tableRead constBuilt.sbox x ≠ 0x01) ∧
    (constBuilt.valid = true ∧ constBuilt.invsbox = generateInverse constBuilt.sbox ∧
      tableRead constBuilt.sbox 0xFF = 0x00 ∧
      ∀ y, tableRead constBuilt.sbox y = 0x00 → y ≤ 0xFF) :=
  ⟨rfl, rfl, by decide,
    ⟨rfl, testState_pair zeroMat 0x00 constTable, fun x h => by
      rw [show constBuilt.sbox = constTable from rfl, tableRead_constTable] at h
      exact absurd h (by decide)⟩,
    rfl, testState_pair zeroMat 0x00 constTable, tableRead_constTable _, fun y _ => Nat.le_of_lt_succ y.isLt⟩

theorem witness_RdstatReadsTheStatus :
    ((0x0D000001 : Word32).extractLsb' 24 8 = 0x0D ∧
      (0x0D000001 : Word32).extractLsb' 0 24 ≠ 0x000000) ∧
    ((∃ t, exec .build staged = .next t) ∧ (∃ t, exec .init staged = .next t) ∧
      (∃ t, exec (.sub 0x00) staged = .next t) ∧ ∃ t, exec (.invsub 0x00) staged = .next t) ∧
    0 < 1 :=
  ⟨by decide, ⟨⟨_, rfl⟩, ⟨_, rfl⟩, ⟨_, rfl⟩, _, rfl⟩, Nat.one_pos⟩

theorem witness_nonzero_byte : (0x53 : Byte) ≠ 0x00 ∧ (0x01 : Byte) < ginv 0x53 := by
  decide

theorem witness_InverseHoldsTheSentinel : ∀ x, tableRead constTable x ≠ 0x01 := fun x h => by
  rw [tableRead_constTable] at h
  exact absurd h (by decide)

theorem witness_InverseOfBijectiveTable : bijectiveTable identityTable := identityTable_bijective

theorem witness_ResetStateIsAsTabulated : (true : Bool) = true := rfl

theorem witness_ResetAssertionAbandonsTheCommand :
    rst { staged with port := .responding 0x0C1, host := [.reset] } = true := rfl

theorem witness_ResetSequenceReachesReady :
    ({ staged with host := [.reset] } : State).host = .reset :: [] ∧
      ([] : List HostAction).head? ≠ some .reset :=
  ⟨rfl, by decide⟩

theorem witness_AutoInitActsOnlyInTheResetSequence :
    (rst { staged with host := [.reset], port := .inReset } = true) ∧ staged.port ≠ .inReset ∧
      rst { staged with port := .inReset } = false ∧
      ({ staged with port := .inReset } : State).port = .inReset :=
  ⟨rfl, by decide, rfl, rfl⟩

theorem witness_HandshakeHoldsOneCommand :
    (cmdOffered (offered 0x00000000 []) = some 0x00000000 ∧
      cmdReady (offered 0x00000000 []) = true) ∧
    (rspOffered { staged with port := .responding 0x0C1, host := [.take] } = some 0x0C1 ∧
      rspReady { staged with port := .responding 0x0C1, host := [.take] } = true) ∧
    (cmdOffered { offered 0x00000000 [] with port := .responding 0x0C1 } = some 0x00000000 ∧
      cmdReady { offered 0x00000000 [] with port := .responding 0x0C1 } = false) ∧
    (rspOffered { staged with port := .responding 0x0C1 } = some 0x0C1 ∧
      rspReady { staged with port := .responding 0x0C1 } = false ∧
      rst { staged with port := .responding 0x0C1 } = false) := by
  decide

theorem witness_ReadsHaveNoSideEffects :
    (∃ t, exec (.sub 0x00) staged = .next t) ∧ (∀ row a, Instr.sub 0x00 ≠ .wrmat row a) ∧
      (∀ a, Instr.sub 0x00 ≠ .wrconst a) ∧ Instr.sub 0x00 ≠ .build ∧ Instr.sub 0x00 ≠ .init ∧
      (staged.valid = true ∨ ∀ a, Instr.sub 0x00 ≠ .sub a ∧ Instr.sub 0x00 ≠ .invsub a) :=
  ⟨⟨_, rfl⟩, by simp, by simp, by simp, by simp, .inl rfl⟩

theorem witness_StagingWrittenOnlyByItsCommands :
    (∃ t, exec .build staged = .next t) ∧ (∀ row a, Instr.build ≠ .wrmat row a) ∧
      ∀ a, Instr.build ≠ .wrconst a :=
  ⟨⟨_, rfl⟩, by simp, by simp⟩

theorem witness_TablesReplacedOnlyWhole : ∃ t, exec (.sub 0x00) notBuilt = .next t := ⟨_, rfl⟩

theorem witness_CommandsAreIdempotent : ∃ t, exec (.invsub 0x00) notBuilt = .next t := ⟨_, rfl⟩

theorem witness_ValidStaysSetUntilReset :
    (∃ t, step (offered 0x09000000 []) = .next t) ∧
      (∀ auto, ∃ t, clockEdgeWith auto (offered 0x09000000 []) = .next t) ∧ rst (offered 0x09000000 []) = false ∧
      (offered 0x09000000 []).valid = true :=
  ⟨⟨_, rfl⟩, fun _ => ⟨_, rfl⟩, by decide, rfl⟩

theorem witness_PairInvariantKept :
    pairInvariant { offered 0x09000000 [] with valid := false } ∧
      (∃ t, step { offered 0x09000000 [] with valid := false } = .next t) ∧
      ∀ auto, ∃ t, clockEdgeWith auto { offered 0x09000000 [] with valid := false } = .next t :=
  ⟨fun h => absurd h (by decide), ⟨_, rfl⟩, fun _ => ⟨_, rfl⟩⟩

/-- The pair invariant with VALID = 1: a pair that was built. -/
theorem witness_PairInvariantKept_valid :
    (testState exampleMat 0x63 (generateSbox exampleMat 0x63)).valid = true ∧
      pairInvariant (testState exampleMat 0x63 (generateSbox exampleMat 0x63)) ∧
      ∃ t, step (testState exampleMat 0x63 (generateSbox exampleMat 0x63)) = .next t :=
  ⟨rfl, fun _ => ⟨exampleMat, 0x63, rfl, testState_pair exampleMat 0x63 _⟩, _, rfl⟩

theorem witness_ResponsesStayLegal :
    responsesLegal { staged with port := .responding 0x102, host := [.take] } ∧
      (∃ t, step { staged with port := .responding 0x102, host := [.take] } = .next t) ∧
      ∀ auto, ∃ t,
        clockEdgeWith auto { staged with port := .responding 0x102, host := [.take] } = .next t :=
  ⟨⟨fun r h => by
      injection h with h
      exact .inr ⟨.reservedField, h ▸ rfl⟩,
    fun r h => by cases h⟩, ⟨_, rfl⟩, fun _ => ⟨_, rfl⟩⟩

theorem witness_ready : staged.port = .ready := rfl

theorem witness_SequencesLookUpEveryByte : ([0x48, 0x45] : List Byte) ≠ [] := by decide

theorem witness_RoundTripWhenBijective :
    staged.port = .ready ∧ staged.valid = true ∧ bijectiveTable staged.sbox ∧
      staged.invsbox = generateInverse staged.sbox :=
  ⟨rfl, rfl, identityTable_bijective, testState_pair exampleMat 0x63 identityTable⟩

theorem witness_LossyRoundTrip :
    constBuilt.valid = true ∧ constBuilt.invsbox = generateInverse constBuilt.sbox ∧
      tableRead constBuilt.sbox 0xFF = tableRead constBuilt.sbox 0x01 :=
  ⟨rfl, testState_pair zeroMat 0x00 constTable, by
    rw [show constBuilt.sbox = constTable from rfl]; simp [tableRead_constTable]⟩

end Sys2Proof.Tests
end

section
/-! PROOFS. The byte matrices as matrices over GF(2) (R23): the linear part of the affine transform is
`Matrix.mulVec`, so the kernel test of `Config.invertible` is invertibility (R10, log 1). -/

namespace Sys2Proof.Machine

open Matrix

/-! ## Bits and bytes over GF(2) -/

/-- A bit as an element of GF(2). -/
def gf2 (b : Bool) : ZMod 2 := if b then 1 else 0

@[simp] theorem gf2_xor (a b : Bool) : gf2 (a ^^ b) = gf2 a + gf2 b := by
  revert a b; decide

@[simp] theorem gf2_and (a b : Bool) : gf2 (a && b) = gf2 a * gf2 b := by
  revert a b; decide

theorem gf2_injective : Function.Injective gf2 := by decide

theorem gf2_surjective : Function.Surjective gf2 := by decide

/-- A byte as a vector over GF(2), entry `i` being the bit of weight `2 ^ i` (R15). -/
def toVec (x : Byte) : Fin 8 → ZMod 2 := fun i => gf2 (x.getLsbD i)

@[simp] theorem toVec_zero : toVec 0x00 = 0 := by
  funext i
  simp [toVec, gf2]

theorem toVec_injective : Function.Injective toVec := fun _ _ h =>
  BitVec.eq_of_getLsbD_eq fun i hi => gf2_injective (congrFun h ⟨i, hi⟩)

theorem toVec_surjective : Function.Surjective toVec := by
  intro v
  choose bits hbits using fun i => gf2_surjective (v i)
  refine ⟨BitVec.ofFnLE bits, funext fun i => ?_⟩
  rw [toVec, BitVec.getLsbD_ofFnLE, dif_pos i.isLt, hbits]

theorem toVec_eq_zero_iff (x : Byte) : toVec x = 0 ↔ x = 0x00 := by
  rw [← toVec_zero, toVec_injective.eq_iff]

/-! ## The linear part is multiplication by the matrix -/

@[simp] theorem toMatrix_apply (m : Mat) (i j : Fin 8) :
    toMatrix m i j = gf2 (m[i].getLsbD j) := rfl

/-- A parity accumulated bit by bit, as R120's inner loop does, is a sum over GF(2). -/
theorem gf2_foldl_xor (f : Nat → Bool) (n : Nat) :
    gf2 ((List.range n).foldl (fun p j => p ^^ f j) false) = ∑ j ∈ Finset.range n, gf2 (f j) := by
  induction n with
  | zero => rfl
  | succ n ih => simp [List.range_succ, Finset.sum_range_succ, ih]

theorem gf2_rowParity (row x : Byte) :
    gf2 (rowParity row x) = ∑ j : Fin 8, gf2 (row.getLsbD j) * toVec x j := by
  rw [rowParity, gf2_foldl_xor (fun j => row.getLsbD j && x.getLsbD j), Finset.sum_range]
  simp only [gf2_and, toVec]

theorem toVec_linear (m : Mat) (x : Byte) : toVec (linear m x) = toMatrix m *ᵥ toVec x := by
  funext i
  calc toVec (linear m x) i
      = gf2 (rowParity m[i] x) := by rw [toVec, getLsbD_linear]
    _ = (toMatrix m *ᵥ toVec x) i := gf2_rowParity m[i] x

/-! ## Invertibility -/

/-- A square matrix over a field is invertible when its kernel is zero, here said of bytes. -/
theorem isUnit_toMatrix_iff (m : Mat) :
    IsUnit (toMatrix m) ↔ ∀ x, linear m x = 0x00 → x = 0x00 := by
  have kernel : (∀ x, linear m x = 0x00 → x = 0x00) ↔
      ∀ v, toMatrix m *ᵥ v = 0 → v = 0 := by
    simp only [toVec_surjective.forall, ← toVec_linear, toVec_eq_zero_iff]
  rw [kernel, isUnit_iff_isUnit_det, isUnit_iff_ne_zero, ne_eq, ← exists_mulVec_eq_zero_iff]
  exact ⟨fun h v hv => by_contra fun hne => h ⟨v, hne, hv⟩, fun h ⟨v, hne, hv⟩ => hne (h v hv)⟩

/-- The model's test of R10's constraint is invertibility over GF(2) (log 1). -/
theorem isUnit_toMatrix_iff_invertible (m : Mat) :
    IsUnit (toMatrix m) ↔ Config.invertible m = true := by
  rw [isUnit_toMatrix_iff, Config.invertible_iff]

/-- Settles O39: the default matrix passes the kernel test, which is invertibility. -/
theorem defaultMatrixIsInvertible : Obligations.DefaultMatrixIsInvertible :=
  (isUnit_toMatrix_iff_invertible _).mpr Config.invertible_defaultMatrix

end Sys2Proof.Machine
end

section
/-! PROOFS. The reset sequence (R240, R242, R243) for both values of RESET_AUTO_INIT (R12). -/

namespace Sys2Proof.Machine

/-! ## The state after reset -/

theorem rst_eq_false_iff (s : State) : rst s = false ↔ s.host.head? ≠ some .reset := by
  simp [rst]

theorem completeResetWith_true_eq (s : State) :
    completeResetWith true s = { s with
      sbox := defaultSbox
      invsbox := generateInverse defaultSbox
      valid := true
      port := .ready } := by
  dsimp only [completeResetWith_true, activateDefault, activate, writeValid, replaceTables,
    defaultSbox]

/-- RESET_AUTO_INIT leaves the default pair active (R242). -/
theorem completeResetWith_pair {auto : Bool} (h : auto = true) (s : State) :
    (completeResetWith auto s).sbox = defaultSbox ∧
      (completeResetWith auto s).invsbox = generateInverse defaultSbox := by
  constructor <;> simp only [h, completeResetWith_true_eq]

theorem resetWith_pair {auto : Bool} (h : auto = true) :
    (State.resetWith auto).sbox = defaultSbox ∧
      (State.resetWith auto).invsbox = generateInverse defaultSbox :=
  ⟨if_pos h, if_pos h⟩

/-- STATUS is VALID, with the reserved bits 0 (R31). -/
theorem statusView_eq (s : State) : statusView s = if s.valid then 0x01 else 0x00 := by
  rw [statusView]
  cases s.valid <;> rfl

/-! ## Where the parameter is read -/

/-- The parameter is read only by the reset sequence (R242): at any other edge either reset is asserted
or the arm that reads it is passed over. -/
theorem clockEdgeWith_eq_step (auto : Bool) {s : State} (h : rst s = true ∨ s.port ≠ .inReset) :
    clockEdgeWith auto s = step s := by
  rcases h with hrst | hport
  · obtain ⟨rest, hh⟩ : ∃ rest, s.host = .reset :: rest := by
      simpa [rst, List.head?_eq_some_iff] using hrst
    rw [clockEdgeWith_of_reset auto hh, step_of_reset hh]
  · rw [step_eq_clockEdgeWith]
    cases hp : s.port with
    | inReset => exact absurd hp hport
    | ready | responding r =>
      rcases hh : s.host with _ | ⟨_ | _ | _, rest⟩ <;> simp [clockEdgeWith, hh, hp]

/-- Settles O42: the reset edge, then the reset sequence. -/
theorem resetSequenceReachesReady : Obligations.ResetSequenceReachesReady := by
  intro auto s rest hhost hrest
  have hrst : rst (assertReset { s with host := rest }) = false := (rst_eq_false_iff _).mpr hrest
  refine ⟨_, _, clockEdgeWith_of_reset auto hhost, clockEdgeWith_of_inReset auto hrst rfl,
    ?_, ?_, ?_, fun h => completeResetWith_pair h _, ?_, ?_, ?_⟩ <;> simp

/-- Settles O40: the fields of the reset state, one by one. -/
theorem resetStateIsAsTabulated : Obligations.ResetStateIsAsTabulated := by
  refine ⟨rfl, rfl, fun auto => ⟨fun _ => rfl, rfl, rfl, resetWith_pair, ?_, rfl, rfl⟩⟩
  exact statusView_eq (State.resetWith auto)

/-- Settles O60: an edge without the reset sequence does not read the parameter, and the reset
sequence is given for either value. -/
theorem autoInitActsOnlyInTheResetSequence : Obligations.AutoInitActsOnlyInTheResetSequence := by
  refine ⟨step_eq_clockEdgeWith, fun auto s => clockEdgeWith_eq_step auto, fun s hrst hport => ?_⟩
  rw [clockEdgeWith_of_inReset true hrst hport, clockEdgeWith_of_inReset false hrst hport,
    completeResetWith_true_eq, completeResetWith_false]
  exact ⟨rfl, rfl⟩

end Sys2Proof.Machine
end

section
/-! PROOFS. What a command and an edge do to the staging registers, the tables and VALID (R22 to R28),
and the pair invariant derived from it. -/

namespace Sys2Proof.Machine

/-! ## What a command leaves besides its response -/

/-- The state a command leaves, but for its response on the port. -/
def commandEffect : Instr → State → State
  | .wrmat row a, s => writeMat row a s
  | .wrconst a, s => writeConst a s
  | .build, s => activate s.mat s.const s
  | .init, s => activateDefault s
  | .sub _, s => ensureInitialized s
  | .invsub _, s => ensureInitialized s
  | _, s => s

/-- Every command answers OK, with some data, over its effect (R67, R200). -/
theorem exec_eq_respond (i : Instr) (s : State) :
    ∃ d, exec i s = .next (respond .ok d (commandEffect i s)) := by
  cases i <;> exact ⟨_, rfl⟩

theorem eq_respond_of_exec {i : Instr} {s t : State} (h : exec i s = .next t) :
    ∃ d, t = respond .ok d (commandEffect i s) := by
  obtain ⟨d, hd⟩ := exec_eq_respond i s
  exact ⟨d, Host.Outcome.next.inj (h.symm.trans hd)⟩

theorem commandEffect_mat {i : Instr} (h : ∀ row a, i ≠ .wrmat row a) (s : State) :
    (commandEffect i s).mat = s.mat := by
  cases i with
  | wrmat row a => exact absurd rfl (h row a)
  | _ => simp [commandEffect]

theorem commandEffect_const {i : Instr} (h : ∀ a, i ≠ .wrconst a) (s : State) :
    (commandEffect i s).const = s.const := by
  cases i with
  | wrconst a => exact absurd rfl (h a)
  | _ => simp [commandEffect]

/-- Settles O47: a command's response changes neither register, and neither does its effect. -/
theorem stagingWrittenOnlyByItsCommands : Obligations.StagingWrittenOnlyByItsCommands := by
  intro i s t h
  obtain ⟨d, rfl⟩ := eq_respond_of_exec h
  exact ⟨fun hi => commandEffect_mat hi s, fun hi => commandEffect_const hi s⟩

/-! ## The tables and VALID under a command -/

/-- Both tables and VALID are in `t` as they were in `s`. -/
def sameTables (s t : State) : Prop :=
  t.sbox = s.sbox ∧ t.invsbox = s.invsbox ∧ t.valid = s.valid

/-- VALID is set, over the table generated from `m` and `c` and its inverse table (R28). -/
def pairFrom (m : Mat) (c : Byte) (t : State) : Prop :=
  t.valid = true ∧ t.invsbox = generateInverse t.sbox ∧ t.sbox = generateSbox m c

theorem sameTables_refl (s : State) : sameTables s s := ⟨rfl, rfl, rfl⟩

theorem pairFrom_activate (m : Mat) (c : Byte) (s : State) : pairFrom m c (activate m c s) := by
  simp [pairFrom]

theorem pairFrom_activateDefault (s : State) :
    pairFrom Config.defaultMatrix Config.defaultConstant (activateDefault s) :=
  pairFrom_activate _ _ s

@[simp] theorem sameTables_respond (s : State) (st : Status) (d : Byte) (u : State) :
    sameTables s (respond st d u) ↔ sameTables s u := by
  simp [sameTables]

@[simp] theorem pairFrom_respond (m : Mat) (c : Byte) (st : Status) (d : Byte) (u : State) :
    pairFrom m c (respond st d u) ↔ pairFrom m c u := by
  simp [pairFrom]

/-- All that a command can do to the tables and VALID: BUILD, INIT and the emergency initialisation
make a new pair active (R149, R151, R161), and whatever else keeps all three. -/
theorem exec_tables {i : Instr} {s t : State} (h : exec i s = .next t) :
    sameTables s t ∨ (i = .build ∧ pairFrom s.mat s.const t) ∨
      ((i = .init ∨ (s.valid = false ∧ ∃ a, i = .sub a ∨ i = .invsub a)) ∧
        pairFrom Config.defaultMatrix Config.defaultConstant t) := by
  obtain ⟨d, rfl⟩ := eq_respond_of_exec h
  rw [sameTables_respond, pairFrom_respond, pairFrom_respond]
  cases i with
  | build => exact .inr (.inl ⟨rfl, pairFrom_activate _ _ s⟩)
  | init => exact .inr (.inr ⟨.inl rfl, pairFrom_activateDefault s⟩)
  | sub a | invsub a =>
    simp only [commandEffect]
    obtain ⟨_, e⟩ | ⟨hv, e⟩ := ensureInitialized_eq s <;> rw [e]
    · exact .inl (sameTables_refl s)
    · exact .inr (.inr ⟨.inr ⟨hv, a, by simp⟩, pairFrom_activateDefault s⟩)
  | _ => exact .inl (sameTables_refl s)

/-- Settles O48: BUILD, INIT and the emergency initialisation replace the pair, and no other command
touches it. -/
theorem tablesReplacedOnlyWhole : Obligations.TablesReplacedOnlyWhole := by
  intro i s t h
  obtain hsame | ⟨hi, hvalid, hinv, hsbox⟩ | ⟨hi, hvalid, hinv, hsbox⟩ := exec_tables h
  · exact .inl hsame
  · exact .inr ⟨hvalid, hinv, .inl ⟨hi, hsbox⟩⟩
  · exact .inr ⟨hvalid, hinv, .inr ⟨hi, hsbox⟩⟩

/-! ## The tables and VALID at an edge -/

/-- An illegal word keeps the tables (R201); a legal one does what its command does. -/
theorem executeWord_tables {w : Word32} {s t : State} (h : executeWord w s = .next t) :
    sameTables s t ∨ ∃ m c, pairFrom m c t := by
  obtain ⟨i, -, e⟩ | ⟨c, -, e⟩ := executeWord_cases w s <;> rw [e] at h
  · obtain hsame | ⟨-, hpair⟩ | ⟨-, hpair⟩ := exec_tables h
    · exact .inl hsame
    · exact .inr ⟨_, _, hpair⟩
    · exact .inr ⟨_, _, hpair⟩
  · cases h
    exact .inl (sameTables_refl s)

theorem completeResetWith_tables (auto : Bool) (s : State) :
    sameTables s (completeResetWith auto s) ∨ ∃ m c, pairFrom m c (completeResetWith auto s) := by
  cases auto with
  | false => exact .inl (sameTables_refl s)
  | true =>
    refine .inr ⟨Config.defaultMatrix, Config.defaultConstant, ?_⟩
    simp [pairFrom]

/-- All that an edge can do to the tables and VALID: reset clears VALID, and any other edge keeps all
three or makes a generated pair active. -/
theorem clockEdgeWith_tables {auto : Bool} {s t : State} (h : clockEdgeWith auto s = .next t) :
    (rst s = true ∧ t.valid = false) ∨ sameTables s t ∨ ∃ m c, pairFrom m c t := by
  obtain ⟨rest, hh, e⟩ | ⟨-, -, e⟩ | ⟨w, rest, -, -, e⟩ | ⟨r, rest, -, -, e⟩ | ⟨-, -, -, -, e⟩ :=
    clockEdgeWith_cases auto s <;> rw [e] at h
  · cases h
    exact .inl ⟨by simp [rst, hh], rfl⟩
  · cases h
    exact .inr (completeResetWith_tables auto s)
  · have hword := executeWord_tables h
    exact .inr hword
  · cases h
    exact .inr (.inl ⟨rfl, rfl, rfl⟩)
  · cases h
    exact .inr (.inl (sameTables_refl s))

/-! ## VALID and the pair invariant -/

theorem clockEdgeWith_keeps_valid {auto : Bool} {s t : State} (hrst : rst s = false)
    (hs : s.valid = true) (h : clockEdgeWith auto s = .next t) : t.valid = true := by
  obtain ⟨hrst', -⟩ | ⟨-, -, hvalid⟩ | ⟨_, _, hvalid, -⟩ := clockEdgeWith_tables h
  · exact absurd (hrst.symm.trans hrst') Bool.false_ne_true
  · exact hvalid.trans hs
  · exact hvalid

/-- Settles O50: a step is an edge, and only the edge of a reset clears VALID. -/
theorem validStaysSetUntilReset : Obligations.ValidStaysSetUntilReset := by
  intro s t hrst hs
  have edge (auto : Bool) : clockEdgeWith auto s = .next t → t.valid = true :=
    clockEdgeWith_keeps_valid hrst hs
  exact ⟨edge true, edge⟩

/-- The invariant reads the tables and VALID only. -/
theorem pairInvariant_of_sameTables {s t : State} (hs : pairInvariant s) (h : sameTables s t) :
    pairInvariant t := by
  obtain ⟨hsbox, hinv, hvalid⟩ := h
  unfold pairInvariant at hs ⊢
  rwa [hsbox, hinv, hvalid]

theorem clockEdgeWith_keeps_pairInvariant {auto : Bool} {s t : State} (hs : pairInvariant s)
    (h : clockEdgeWith auto s = .next t) : pairInvariant t := by
  obtain ⟨-, hclear⟩ | hsame | ⟨m, c, -, hinv, hsbox⟩ := clockEdgeWith_tables h
  · exact fun hvalid => absurd (hclear.symm.trans hvalid) Bool.false_ne_true
  · exact pairInvariant_of_sameTables hs hsame
  · exact fun _ => ⟨m, c, hsbox, hinv⟩

/-- Settles O51: after an edge VALID is 0, or the pair is the old one, or it was just generated. -/
theorem pairInvariantKept : Obligations.PairInvariantKept := by
  intro s t hs
  have edge (auto : Bool) : clockEdgeWith auto s = .next t → pairInvariant t :=
    clockEdgeWith_keeps_pairInvariant hs
  exact ⟨edge true, edge⟩

/-! ## The invariants after reset -/

/-- VALID is RESET_AUTO_INIT after reset, so the pair is the default one where VALID is 1 (R242). -/
theorem pairInvariant_resetWith (auto : Bool) : pairInvariant (State.resetWith auto) := by
  intro (hvalid : auto = true)
  obtain ⟨hsbox, hinv⟩ := resetWith_pair hvalid
  exact ⟨_, _, hsbox, hinv.trans (congrArg generateInverse hsbox.symm)⟩

/-- No response is pending and none has been taken (R243). -/
theorem responsesLegal_resetWith (auto : Bool) : responsesLegal (State.resetWith auto) := by
  simp [responsesLegal, State.resetWith]

/-- Settles O53: both invariants, for either value of the parameter; the default is one of the two. -/
theorem invariantsHoldAtReset : Obligations.InvariantsHoldAtReset :=
  ⟨fun auto => ⟨pairInvariant_resetWith auto, responsesLegal_resetWith auto⟩,
    pairInvariant_resetWith _, responsesLegal_resetWith _⟩

end Sys2Proof.Machine
end

section
/-! PROOFS. What a command leaves and what it answers (R47, R48), and the run of command words (R249)
obtained at the ports, edge by edge. -/

namespace Sys2Proof.Machine

/-! ## The response of a command -/

/-- The data a command answers, read from the state its effect leaves. -/
def commandData : Instr → State → Byte
  | .gmul a b, _ => gmul a b
  | .ginv a, _ => ginv a
  | .affine a, s => affine a s.mat s.const
  | .sbent a, s => affine (ginv a) s.mat s.const
  | .rdmat row, s => s.mat[row]
  | .rdconst, s => s.const
  | .sub a, s => tableRead s.sbox a
  | .invsub a, s => tableRead s.invsbox a
  | .rdstat, s => statusView s
  | _, _ => 0x00

theorem exec_eq_respond_commandData (i : Instr) (s : State) :
    exec i s = .next (respond .ok (commandData i (commandEffect i s)) (commandEffect i s)) := by
  cases i <;> rfl

/-! ## A command neither reads nor writes the ports and the host -/

theorem ensureInitialized_withPorts (s : State) (p : Port) (h : List HostAction) :
    ensureInitialized { s with port := p, host := h } =
      { ensureInitialized s with port := p, host := h } := by
  obtain ⟨hv, e⟩ | ⟨hv, e⟩ := ensureInitialized_eq s <;> rw [e]
  · exact ensureInitialized_of_valid hv
  · refine (ensureInitialized_of_not_valid (s := { s with port := p, host := h }) hv).trans ?_
    dsimp only [activateDefault, activate, writeValid, replaceTables]

theorem commandEffect_withPorts (i : Instr) (s : State) (p : Port) (h : List HostAction) :
    commandEffect i { s with port := p, host := h } =
      { commandEffect i s with port := p, host := h } := by
  cases i with
  | sub a | invsub a => exact ensureInitialized_withPorts s p h
  | build | init =>
    dsimp only [commandEffect, activateDefault, activate, writeValid, replaceTables]
  | _ => rfl

theorem commandData_withPorts (i : Instr) (s : State) (p : Port) (h : List HostAction) :
    commandData i { s with port := p, host := h } = commandData i s := by
  cases i <;> rfl

@[simp] theorem commandEffect_host (i : Instr) (s : State) :
    (commandEffect i s).host = s.host := by
  cases i <;> simp [commandEffect]

@[simp] theorem commandEffect_taken (i : Instr) (s : State) :
    (commandEffect i s).taken = s.taken := by
  cases i <;> simp [commandEffect]

/-! ## Commands that write nothing -/

/-- Only the staging writes, the builders and the emergency initialisation have an effect (R47). -/
theorem commandEffect_eq_self {i : Instr} {s : State} (hmat : ∀ row a, i ≠ .wrmat row a)
    (hconst : ∀ a, i ≠ .wrconst a) (hbuild : i ≠ .build) (hinit : i ≠ .init)
    (hvalid : s.valid = true ∨ ∀ a, i ≠ .sub a ∧ i ≠ .invsub a) : commandEffect i s = s := by
  cases i with
  | wrmat row a => exact absurd rfl (hmat row a)
  | wrconst a => exact absurd rfl (hconst a)
  | build => exact absurd rfl hbuild
  | init => exact absurd rfl hinit
  | sub a | invsub a => exact ensureInitialized_of_valid (hvalid.resolve_right (by simp))
  | _ => rfl

/-- Settles O46: such a command has no effect, so its response is all that it leaves. -/
theorem readsHaveNoSideEffects : Obligations.ReadsHaveNoSideEffects := by
  intro i s t h hmat hconst hbuild hinit hvalid
  obtain ⟨d, rfl⟩ := eq_respond_of_exec h
  rw [commandEffect_eq_self hmat hconst hbuild hinit hvalid]
  rfl

/-! ## Commands executed twice -/

/-- BUILD reads the staging registers, which it does not write, and the others write what they read
or constants: a second effect finds its work done. -/
theorem commandEffect_idem (i : Instr) (s : State) :
    commandEffect i (commandEffect i s) = commandEffect i s := by
  cases i with
  | wrmat row a => simp [commandEffect, writeMat]
  | build | init =>
    dsimp only [commandEffect, activateDefault, activate, writeValid, replaceTables]
  | sub a | invsub a => exact ensureInitialized_of_valid (ensureInitialized_valid s)
  | _ => rfl

/-- A command with no effect on a state has none once a response is pending. -/
theorem commandEffect_respond {i : Instr} {s : State} (h : commandEffect i s = s) (st : Status)
    (d : Byte) : commandEffect i (respond st d s) = respond st d s :=
  (commandEffect_withPorts i s _ _).trans (by rw [h]; rfl)

/-- Settles O49: after the command its effect is done, so that the second execution answers from the
state it finds, and with the data of the first. -/
theorem commandsAreIdempotent : Obligations.CommandsAreIdempotent := by
  intro i s t h
  let u := commandEffect i s
  have ht : t = respond .ok (commandData i u) u :=
    Host.Outcome.next.inj (h.symm.trans (exec_eq_respond_commandData i s))
  have heffect : commandEffect i t = t := by
    rw [ht, commandEffect_respond (commandEffect_idem i s)]
  have hdata : commandData i t = commandData i u := by
    rw [ht]
    exact commandData_withPorts i u _ _
  rw [exec_eq_respond_commandData, heffect, hdata, ht]
  rfl

/-! ## One word at the ports -/

/-- Executing a word offers one response, and what the host does next is neither read nor written. -/
theorem executeWord_withHost (w : Word32) (s : State) :
    ∃ (t : State) (r : Word10), t.port = .responding r ∧ t.host = s.host ∧ t.taken = s.taken ∧
      ∀ h, executeWord w { s with host := h } = .next { t with host := h } := by
  cases hw : decode w with
  | ok i =>
    let u := commandEffect i s
    refine ⟨respond .ok (commandData i u) u, _, rfl, commandEffect_host i s,
      commandEffect_taken i s, fun h => ?_⟩
    rw [executeWord_of_ok hw, exec_eq_respond_commandData, commandEffect_withPorts,
      commandData_withPorts]
    rfl
  | error c => exact ⟨raiseIllegal c s, _, rfl, rfl, rfl, fun h => executeWord_of_error hw _⟩

theorem transact_of_executeWord {w : Word32} {s t : State} {r : Word10}
    (h : executeWord w s = .next t) (ht : t.port = .responding r) :
    transact w s = .next (takeResponse r t) := by
  simp only [transact, h, ht]

theorem runWords_cons_of_transact {w : Word32} {s t : State} (h : transact w s = .next t)
    (ws : List Word32) : runWords (w :: ws) s = runWords ws t := by
  simp only [runWords, h]

theorem core_run_succ {s t : State} (h : step s = .next t) (n : Nat) :
    Sys2Proof.core.run (n + 1) s = Sys2Proof.core.run n t := by
  simp only [Host.Core.run, Sys2Proof.core, h]

/-- The two edges of one word, accepting it and taking its response, are its transaction. -/
theorem transact_eq_two_edges (w : Word32) {s : State} (hp : s.port = .ready) :
    ∃ (u : State) (r : Word10), transact w s = .next u ∧ u.port = .ready ∧ u.host = s.host ∧
      u.taken = s.taken ++ [r] ∧
      ∀ n rest, Sys2Proof.core.run (n + 2) { s with host := .command w :: .take :: rest } =
        Sys2Proof.core.run n { u with host := rest } := by
  obtain ⟨t, r, hport, hhost, htaken, hexec⟩ := executeWord_withHost w s
  have hs : executeWord w s = .next t := (hexec s.host).trans (by rw [← hhost])
  refine ⟨takeResponse r t, r, transact_of_executeWord hs hport, rfl, hhost,
    congrArg (· ++ [r]) htaken, fun n rest => ?_⟩
  let offer : State := { s with host := .command w :: .take :: rest }
  have accept : step offer = .next { t with host := .take :: rest } :=
    (step_of_command (s := offer) rfl hp).trans (hexec _)
  have take : step { t with host := .take :: rest } =
      .next (takeResponse r { t with host := rest }) := step_of_take rfl hport
  rw [core_run_succ accept, core_run_succ take]
  rfl

/-- Settles O54: by induction on the words, each of which takes two edges. -/
theorem portsRefineTheRun : Obligations.PortsRefineTheRun := by
  intro ws
  induction ws with
  | nil => exact fun s hp => ⟨s, rfl, rfl, hp, rfl, [], (List.append_nil _).symm, rfl⟩
  | cons w ws ih =>
    intro s hp
    obtain ⟨u, r, hu, huport, huhost, hutaken, hedges⟩ := transact_eq_two_edges w hp
    obtain ⟨t, hrun, hcore, htport, hthost, rs, httaken, hlen⟩ := ih u huport
    refine ⟨t, (runWords_cons_of_transact hu ws).trans hrun, ?_, htport, hthost.trans huhost,
      r :: rs, ?_, congrArg (· + 1) hlen⟩
    · rw [huhost] at hcore
      exact (hedges (2 * ws.length) _).trans hcore
    · rw [httaken, hutaken, List.append_assoc, List.singleton_append]

end Sys2Proof.Machine
end

section
/-! PROOFS. The decoder against the opcode map and the encoder (R64, R65, R68): the words of a row are
the encoder's words of its commands, and decoding undoes encoding. -/

namespace Sys2Proof

open Sys2Proof.Machine

/-! ## The fields of a word -/

/-- Fields put behind one another can be told apart again. -/
theorem append_eq_append_iff {n m : Nat} {x y : BitVec n} {u v : BitVec m} :
    x ++ u = y ++ v ↔ x = y ∧ u = v := by
  refine ⟨fun h => ⟨?_, ?_⟩, fun ⟨hx, hu⟩ => by rw [hx, hu]⟩
  · simpa only [BitVec.extractLsb'_append_eq_left] using congrArg (BitVec.extractLsb' m n) h
  · simpa only [BitVec.extractLsb'_append_eq_right] using congrArg (BitVec.extractLsb' 0 m) h

/-- A word is its five fields (R62). -/
theorem eq_append_fields (w : Word32) :
    w = opField w ++ w.extractLsb' 19 5 ++ BitVec.ofFin (w := 3) (rowField w) ++ bField w ++
      aField w := by
  have hrow : BitVec.ofFin (w := 3) (rowField w) = w.extractLsb' 16 3 := rfl
  rw [hrow, opField, bField, aField,
    BitVec.extractLsb'_append_extractLsb'_eq_extractLsb' (by rfl),
    BitVec.extractLsb'_append_extractLsb'_eq_extractLsb' (by rfl),
    BitVec.extractLsb'_append_extractLsb'_eq_extractLsb' (by rfl),
    BitVec.extractLsb'_append_extractLsb'_eq_extractLsb' (by rfl), BitVec.extractLsb'_eq_self]

/-- A word that is its opcode alone under a mask keeping OP and RSV is packed from its operand fields,
and an operand field that the mask keeps whole is zero. -/
theorem packWord_of_and {w : Word32} {op : Byte} (mrow : BitVec 3) (mb ma : Byte)
    (h : w &&& (0xFF#8 ++ 0x1F#5 ++ mrow ++ mb ++ ma) = packWord op 0 0 0) :
    packWord op (rowField w) (bField w) (aField w) = w ∧
      (mrow = BitVec.allOnes 3 → rowField w = 0) ∧ (mb = BitVec.allOnes 8 → bField w = 0) ∧
      (ma = BitVec.allOnes 8 → aField w = 0) := by
  have whole {n : Nat} {x y m : BitVec n} (hx : x &&& m = y) (hm : m = BitVec.allOnes n) :
      x = y := by
    rwa [hm, BitVec.and_allOnes] at hx
  rw [eq_append_fields w, fields_and, packWord] at h
  obtain ⟨h, ha⟩ := append_eq_append_iff.mp h
  obtain ⟨h, hb⟩ := append_eq_append_iff.mp h
  obtain ⟨h, hrow⟩ := append_eq_append_iff.mp h
  obtain ⟨hop, hrsv⟩ := append_eq_append_iff.mp h
  refine ⟨?_, fun hm => congrArg BitVec.toFin (whole hrow hm), whole hb, whole ha⟩
  rw [packWord, ← whole hop rfl, ← whole hrsv rfl]
  exact (eq_append_fields w).symm

/-! ## The row of a command -/

/-- The row of the opcode map that a command belongs to (R65). -/
def rowOf : Instr → OpcodeRow
  | .nop => opcodeMap[0]
  | .gmul _ _ => opcodeMap[1]
  | .ginv _ => opcodeMap[2]
  | .affine _ => opcodeMap[3]
  | .sbent _ => opcodeMap[4]
  | .wrmat _ _ => opcodeMap[5]
  | .rdmat _ => opcodeMap[6]
  | .wrconst _ => opcodeMap[7]
  | .rdconst => opcodeMap[8]
  | .build => opcodeMap[9]
  | .init => opcodeMap[10]
  | .sub _ => opcodeMap[11]
  | .invsub _ => opcodeMap[12]
  | .rdstat => opcodeMap[13]

theorem rowOf_mem (i : Instr) : rowOf i ∈ opcodeMap := by
  cases i <;> exact List.getElem_mem _

theorem rowOf_mnemonic (i : Instr) : (rowOf i).mnemonic = i.mnemonic := by
  cases i <;> rfl

/-- No two rows have the same mnemonic. -/
theorem row_eq_of_mnemonic {r r' : OpcodeRow} (hr : r ∈ opcodeMap) (hr' : r' ∈ opcodeMap)
    (h : r.mnemonic = r'.mnemonic) : r = r' :=
  List.inj_on_of_nodup_map (by decide : (opcodeMap.map OpcodeRow.mnemonic).Nodup) hr hr' h

/-- The encoder's word of a command matches the command's row (R64, R65). -/
theorem encode_and_mask (i : Instr) : encode i &&& (rowOf i).mask = (rowOf i).pattern := by
  cases i with
  | gmul a b => exact (packWord_and 0x01 0 b a 7 0 0).trans (by simp [rowOf, opcodeMap])
  | wrmat row a => exact (packWord_and 0x05 row 0 a 0 0xFF 0).trans (by simp [rowOf, opcodeMap])
  | rdmat row => exact (packWord_and 0x06 row 0 0 0 0xFF 0xFF).trans (by simp [rowOf, opcodeMap])
  | ginv a | affine a | sbent a | wrconst a | sub a | invsub a =>
    exact (packWord_and _ 0 0 a 7 0xFF 0).trans (by simp [rowOf, opcodeMap])
  | nop | rdconst | build | init | rdstat => rfl

/-! ## The words of a row, by the operands that the row has -/

theorem packWord_of_and_ab {w : Word32} {op : Byte} (h : w &&& 0xFFFF0000 = packWord op 0 0 0) :
    packWord op 0 (bField w) (aField w) = w := by
  obtain ⟨hw, hrow, -, -⟩ := packWord_of_and 7 0 0 h
  rwa [hrow rfl] at hw

theorem packWord_of_and_a {w : Word32} {op : Byte} (h : w &&& 0xFFFFFF00 = packWord op 0 0 0) :
    packWord op 0 0 (aField w) = w := by
  obtain ⟨hw, hrow, hb, -⟩ := packWord_of_and 7 0xFF 0 h
  rwa [hrow rfl, hb rfl] at hw

theorem packWord_of_and_row_a {w : Word32} {op : Byte} (h : w &&& 0xFFF8FF00 = packWord op 0 0 0) :
    packWord op (rowField w) 0 (aField w) = w := by
  obtain ⟨hw, -, hb, -⟩ := packWord_of_and 0 0xFF 0 h
  rwa [hb rfl] at hw

theorem packWord_of_and_row {w : Word32} {op : Byte} (h : w &&& 0xFFF8FFFF = packWord op 0 0 0) :
    packWord op (rowField w) 0 0 = w := by
  obtain ⟨hw, -, hb, ha⟩ := packWord_of_and 0 0xFF 0xFF h
  rwa [hb rfl, ha rfl] at hw

theorem packWord_of_and_none {w : Word32} {op : Byte} (h : w &&& 0xFFFFFFFF = packWord op 0 0 0) :
    packWord op 0 0 0 = w := by
  obtain ⟨hw, hrow, hb, ha⟩ := packWord_of_and 7 0xFF 0xFF h
  rwa [hrow rfl, hb rfl, ha rfl] at hw

/-- A word that matches a row is the encoder's word of a command of that row (R64). -/
theorem exists_encode_of_row {r : OpcodeRow} (hr : r ∈ opcodeMap) {w : Word32}
    (h : w &&& r.mask = r.pattern) : ∃ i, encode i = w ∧ rowOf i = r := by
  fin_cases hr
  · exact ⟨.nop, packWord_of_and_none h, rfl⟩
  · exact ⟨.gmul _ _, packWord_of_and_ab h, rfl⟩
  · exact ⟨.ginv _, packWord_of_and_a h, rfl⟩
  · exact ⟨.affine _, packWord_of_and_a h, rfl⟩
  · exact ⟨.sbent _, packWord_of_and_a h, rfl⟩
  · exact ⟨.wrmat _ _, packWord_of_and_row_a h, rfl⟩
  · exact ⟨.rdmat _, packWord_of_and_row h, rfl⟩
  · exact ⟨.wrconst _, packWord_of_and_a h, rfl⟩
  · exact ⟨.rdconst, packWord_of_and_none h, rfl⟩
  · exact ⟨.build, packWord_of_and_none h, rfl⟩
  · exact ⟨.init, packWord_of_and_none h, rfl⟩
  · exact ⟨.sub _, packWord_of_and_a h, rfl⟩
  · exact ⟨.invsub _, packWord_of_and_a h, rfl⟩
  · exact ⟨.rdstat, packWord_of_and_none h, rfl⟩

theorem legalWord_iff (w : Word32) :
    legalWord w = true ↔ ∃ r ∈ opcodeMap, w &&& r.mask = r.pattern := by
  simp [legalWord, OpcodeRow.accepts]

/-- The legal words are the encoder's words of the commands (R64, R65). -/
theorem legalWord_iff_exists_encode (w : Word32) : legalWord w = true ↔ ∃ i, encode i = w := by
  rw [legalWord_iff]
  constructor
  · rintro ⟨r, hr, h⟩
    obtain ⟨i, hi, -⟩ := exists_encode_of_row hr h
    exact ⟨i, hi⟩
  · rintro ⟨i, rfl⟩
    exact ⟨rowOf i, rowOf_mem i, encode_and_mask i⟩

/-! ## What the decoder answers -/

/-- The opcode is tested first: above 0x0D nothing else is (R68, R203). -/
theorem decode_of_undefined {w : Word32} (h : 0x0D < (opField w).toNat) :
    decode w = .error .undefinedOpcode := by
  unfold decode
  split
  case h_15 => rfl
  all_goals omega

/-- A defined opcode selects a command's row, whose fixed bits the decoder then tests (R68). -/
theorem decode_of_defined {w : Word32} (h : (opField w).toNat ≤ 0x0D) :
    ∃ i, decode w = checkFields w (rowOf i).mask (rowOf i).pattern i := by
  suffices ∃ mask pattern i, decode w = checkFields w mask pattern i ∧
      mask = (rowOf i).mask ∧ pattern = (rowOf i).pattern by
    obtain ⟨_, _, i, hi, rfl, rfl⟩ := this
    exact ⟨i, hi⟩
  unfold decode
  generalize (opField w).toNat = op at h
  interval_cases op <;> exact ⟨_, _, _, rfl, rfl, rfl⟩

theorem checkFields_eq_ok {w mask pattern : Word32} (h : w &&& mask = pattern) (i : Instr) :
    checkFields w mask pattern i = .ok i := if_pos h

theorem checkFields_eq_error {w mask pattern : Word32} (h : w &&& mask ≠ pattern) (i : Instr) :
    checkFields w mask pattern i = .error .reservedField := if_neg h

/-- Of the words with a defined opcode, those with a stray bit are rejected for it (R68). -/
theorem decode_of_not_legal {w : Word32} (hop : (opField w).toNat ≤ 0x0D)
    (h : legalWord w = false) : decode w = .error .reservedField := by
  obtain ⟨i, hi⟩ := decode_of_defined hop
  have hrow : w &&& (rowOf i).mask ≠ (rowOf i).pattern := fun hmatch =>
    Bool.false_ne_true (h.symm.trans ((legalWord_iff w).mpr ⟨rowOf i, rowOf_mem i, hmatch⟩))
  exact hi.trans (checkFields_eq_error hrow i)

/-- The opcode of a command's word selects that command, with the operands of the word. -/
theorem decode_encode_eq_checkFields (i : Instr) :
    decode (encode i) = checkFields (encode i) (rowOf i).mask (rowOf i).pattern i := by
  cases i <;> simp [decode, encode, rowOf, opcodeMap]

/-- Settles O3: the encoder's word has the fixed bits of the row that its opcode selects. -/
theorem decodeOfEncode : Obligations.DecodeOfEncode := fun i =>
  (decode_encode_eq_checkFields i).trans (checkFields_eq_ok (encode_and_mask i) i)

theorem encode_injective : Function.Injective encode := fun i j h =>
  Except.ok.inj ((decodeOfEncode i).symm.trans ((congrArg decode h).trans (decodeOfEncode j)))

theorem legalWord_of_decode {w : Word32} {i : Instr} (h : decode w = .ok i) :
    legalWord w = true := by
  by_contra hl
  rw [Bool.not_eq_true] at hl
  rcases Nat.lt_or_ge 0x0D (opField w).toNat with hop | hop
  · cases h.symm.trans (decode_of_undefined hop)
  · cases h.symm.trans (decode_of_not_legal hop hl)

/-- Settles O4: a word that decodes is legal, so it is the encoder's word of some command, which is
the one that it decodes to. -/
theorem encodeOfDecode : Obligations.EncodeOfDecode := by
  intro w i h
  obtain ⟨j, rfl⟩ := (legalWord_iff_exists_encode w).mp (legalWord_of_decode h)
  exact congrArg encode (Except.ok.inj (h.symm.trans (decodeOfEncode j)))

/-- A command's word matches its own row and no other. -/
theorem encode_matches_iff (i : Instr) {r : OpcodeRow} (hr : r ∈ opcodeMap) :
    encode i &&& r.mask = r.pattern ↔ r.mnemonic = i.mnemonic := by
  constructor
  · intro h
    obtain ⟨j, hj, rfl⟩ := exists_encode_of_row hr h
    rw [rowOf_mnemonic, encode_injective hj]
  · intro h
    rw [row_eq_of_mnemonic hr (rowOf_mem i) (h.trans (rowOf_mnemonic i).symm)]
    exact encode_and_mask i

/-- Settles O5: the legal words are the encoder's words, and these are the words that decode. -/
theorem legalExactlyWhenMaskMatches : Obligations.LegalExactlyWhenMaskMatches := by
  refine ⟨fun w => ?_, fun w i h r hr => ?_⟩
  · rw [← legalWord_iff]
    refine ⟨fun ⟨i, h⟩ => legalWord_of_decode h, fun h => ?_⟩
    obtain ⟨i, rfl⟩ := (legalWord_iff_exists_encode w).mp h
    exact ⟨i, decodeOfEncode i⟩
  · rw [← encodeOfDecode w i h]
    exact encode_matches_iff i hr

/-- Settles O6: the opcode's test, the test of the fixed bits, and the round trip of legal words. -/
theorem decoderIsTotalAndExact : Obligations.DecoderIsTotalAndExact := by
  refine ⟨fun w => decode_of_undefined, fun w => decode_of_not_legal, fun w h => ?_⟩
  obtain ⟨i, rfl⟩ := (legalWord_iff_exists_encode w).mp h
  exact ⟨i, decodeOfEncode i, rfl⟩

/-! ## Words and operands of the assembler (R71) -/

/-- Settles O10: the fields are put behind one another, each shifted past those that follow it. -/
theorem encodingFormula : Obligations.EncodingFormula := by
  intro op row b a
  have hrow : (BitVec.ofFin (w := 3) row).setWidth 32 = BitVec.ofNat 32 row.val :=
    BitVec.eq_of_toNat_eq (by simp)
  calc packWord op row b a
      = (op ++ 0#5 ++ BitVec.ofFin (w := 3) row ++ b ++ a).setWidth 32 :=
        (BitVec.setWidth_eq _).symm
    _ = _ := by
        simp only [BitVec.setWidth_append_eq_shiftLeft_setWidth_or, BitVec.shiftLeft_or_distrib,
          ← BitVec.shiftLeft_add, hrow]
        simp

/-- Settles O11: a byte operand is checked against 255, a row operand against 7 and its base. -/
theorem operandsOutOfRangeAreRejected : Obligations.OperandsOutOfRangeAreRejected := by
  refine ⟨fun n h => ?_, fun n hn => dif_neg (Nat.not_lt.mpr hn), fun r => ⟨?_, ?_⟩⟩
  · simp [byteOperand, byteInRange]
  · simp [rowOperand]
  · simp [rowOperand]

/-- Settles O2: the legal words are the encoder's words of their commands; the others fail the test of
the opcode, and the test of the fixed bits. -/
theorem sampleWordsDecode : Obligations.SampleWordsDecode :=
  ⟨decodeOfEncode .nop, decodeOfEncode (.gmul 0x57 0x83), decodeOfEncode (.ginv 0x53),
    decodeOfEncode (.wrmat 3 0x8F), decodeOfEncode (.rdmat 7), decodeOfEncode .build,
    decodeOfEncode (.invsub 0xFF), decode_of_undefined (by decide),
    decode_of_not_legal (by decide) (by decide)⟩

end Sys2Proof
end

section
/-! PROOFS. What a word and an edge answer (R61, R67, R69, R201, R202), and the handshake of the ports
(R60, R61). -/

namespace Sys2Proof.Machine

/-! ## The response of one word -/

@[simp] theorem commandEffect_fresh (i : Instr) (s : State) :
    (commandEffect i s).fresh = s.fresh := by
  cases i <;> simp [commandEffect]

/-- Settles O44: a command answers OK over its effect, which reaches neither the host nor the
counter of free values. -/
theorem everyLegalCommandRespondsOk : Obligations.EveryLegalCommandRespondsOk := by
  intro i s
  obtain ⟨d, h⟩ := exec_eq_respond i s
  exact ⟨_, d, h, rfl, commandEffect_host i s, commandEffect_taken i s, commandEffect_fresh i s⟩

/-- A word is answered by one legal response, offered at the port, and the host's side is kept. -/
theorem executeWord_response (w : Word32) (s : State) :
    ∃ t r, executeWord w s = .next t ∧ t.port = .responding r ∧ legalResponse r ∧
      t.host = s.host ∧ t.taken = s.taken := by
  obtain ⟨i, -, h⟩ | ⟨c, -, h⟩ := executeWord_cases w s
  · obtain ⟨t, d, hexec, hport, hhost, htaken, -⟩ := everyLegalCommandRespondsOk i s
    exact ⟨t, _, h.trans hexec, hport, .inl ⟨d, rfl⟩, hhost, htaken⟩
  · exact ⟨_, _, h, rfl, .inr ⟨c, rfl⟩, rfl, rfl⟩

/-- Settles O1: the edge accepts the word, and its decoding says how it is executed. -/
theorem stepRunsTheDecodedCommand : Obligations.StepRunsTheDecodedCommand := by
  intro s w rest hport hhost
  rw [step_of_command hhost hport]
  exact ⟨fun i h => executeWord_of_ok h _, fun c h => executeWord_of_error h _⟩

/-- Settles O8: the opcode's test rejects the word, and 0x101 is {ILLEGAL, 0x01}. -/
theorem undefinedOpcodesChangeNothing : Obligations.UndefinedOpcodesChangeNothing := by
  intro s w rest hport hhost hop
  exact (stepRunsTheDecodedCommand s w rest hport hhost).2 _ (decode_of_undefined hop)

/-! ## The responses at an edge -/

/-- Responses stay legal where no new one is offered and none is taken. -/
theorem responsesLegal_of_silent {s t : State} (hs : responsesLegal s)
    (hport : ∀ r, t.port ≠ .responding r) (htaken : t.taken = s.taken) : responsesLegal t :=
  ⟨fun r hr => absurd hr (hport r), htaken ▸ hs.2⟩

theorem responsesLegal_takeResponse {s : State} {r : Word10} (hs : responsesLegal s)
    (hr : s.port = .responding r) : responsesLegal (takeResponse r s) := by
  obtain ⟨hpending, htaken⟩ := hs
  refine ⟨fun r h => by simp at h, fun r' h => ?_⟩
  rcases List.mem_append.mp h with h | h
  · exact htaken r' h
  · rw [List.mem_singleton.mp h]
    exact hpending r hr

theorem responsesLegal_executeWord {w : Word32} {s t : State} (hs : responsesLegal s)
    (h : executeWord w s = .next t) : responsesLegal t := by
  obtain ⟨u, r, hu, hport, hr, -, htaken⟩ := executeWord_response w s
  obtain rfl := Host.Outcome.next.inj (hu.symm.trans h)
  exact ⟨fun r' h' => Port.responding.inj (hport.symm.trans h') ▸ hr, htaken ▸ hs.2⟩

theorem clockEdgeWith_keeps_responsesLegal {auto : Bool} {s t : State} (hs : responsesLegal s)
    (h : clockEdgeWith auto s = .next t) : responsesLegal t := by
  obtain ⟨rest, -, e⟩ | ⟨-, -, e⟩ | ⟨w, rest, -, -, e⟩ | ⟨r, rest, -, hport, e⟩ | ⟨-, -, -, -, e⟩ :=
    clockEdgeWith_cases auto s <;> rw [e] at h
  · cases h
    exact responsesLegal_of_silent hs (by simp) (assertReset_taken _)
  · cases h
    exact responsesLegal_of_silent hs (by simp) (completeResetWith_taken auto s)
  · exact responsesLegal_executeWord (s := { s with host := rest }) hs h
  · cases h
    exact responsesLegal_takeResponse (s := { s with host := rest }) hs hport
  · cases h
    exact hs

/-- Settles O52: a step is an edge, and an edge offers only the legal response of a word and takes
only one that is offered. -/
theorem responsesStayLegal : Obligations.ResponsesStayLegal := by
  intro s t hs
  have edge (auto : Bool) : clockEdgeWith auto s = .next t → responsesLegal t :=
    clockEdgeWith_keeps_responsesLegal hs
  exact ⟨edge true, edge⟩

/-! ## The handshake -/

theorem cmdReady_iff (s : State) : cmdReady s = true ↔ s.port = .ready := by
  simp [cmdReady]

theorem rspOffered_eq_some_iff (s : State) (r : Word10) :
    rspOffered s = some r ↔ s.port = .responding r := by
  cases h : s.port <;> simp [rspOffered, h]

theorem cmdOffered_eq_some_iff (s : State) (w : Word32) :
    cmdOffered s = some w ↔ ∃ rest, s.host = .command w :: rest := by
  rcases h : s.host with _ | ⟨_ | _ | _, rest⟩ <;> simp [cmdOffered, h]

theorem rspReady_iff (s : State) : rspReady s = true ↔ ∃ rest, s.host = .take :: rest := by
  simp [rspReady, List.head?_eq_some_iff]

/-- Settles O43: an offer meets a ready port or waits, and so does a response its taker. -/
theorem handshakeHoldsOneCommand : Obligations.HandshakeHoldsOneCommand := by
  refine ⟨fun s w hoffer hready => ?_, fun s r hoffer hready => ?_, fun s w hoffer hready => ?_,
    fun s r hoffer hready hrst => ?_⟩
  · obtain ⟨rest, hhost⟩ := (cmdOffered_eq_some_iff s w).mp hoffer
    obtain ⟨t, r, h, hport, -, hthost, htaken⟩ := executeWord_response w { s with host := rest }
    rw [hhost]
    exact ⟨t, r, (step_of_command hhost ((cmdReady_iff s).mp hready)).trans h, h,
      by simp [cmdReady, hport], (rspOffered_eq_some_iff t r).mpr hport, htaken, hthost⟩
  · obtain ⟨rest, hhost⟩ := (rspReady_iff s).mp hready
    rw [hhost]
    exact ⟨_, step_of_take hhost ((rspOffered_eq_some_iff s r).mp hoffer), rfl, rfl, rfl, rfl⟩
  · obtain ⟨rest, hhost⟩ := (cmdOffered_eq_some_iff s w).mp hoffer
    obtain ⟨_, hh, -⟩ | ⟨-, -, h⟩ | ⟨_, _, -, hp, -⟩ | ⟨_, _, hh, -⟩ | ⟨-, -, -, -, h⟩ :=
      step_cases s
    · cases hhost.symm.trans hh
    · refine ⟨_, h, (cmdOffered_eq_some_iff _ w).mpr ⟨rest, ?_⟩⟩
      rw [completeResetWith_host, hhost]
    · cases hready.symm.trans ((cmdReady_iff s).mpr hp)
    · cases hhost.symm.trans hh
    · exact ⟨s, h, hoffer⟩
  · have hport := (rspOffered_eq_some_iff s r).mp hoffer
    obtain ⟨_, hh, -⟩ | ⟨-, hp, -⟩ | ⟨_, _, -, hp, -⟩ | ⟨_, _, hh, -⟩ | ⟨-, -, -, -, h⟩ :=
      step_cases s
    · simp [rst, hh] at hrst
    · cases hport.symm.trans hp
    · cases hport.symm.trans hp
    · cases hready.symm.trans ((rspReady_iff s).mpr ⟨_, hh⟩)
    · exact h

end Sys2Proof.Machine
end

section
/-! PROOFS. Runs of commands (R249) as folds, and the pseudo-instructions LDMAT (R72) and BUILDTABLE
(R73). -/

namespace Sys2Proof.Machine

/-! ## A run of commands -/

/-- The state after a command has been executed and its response taken. -/
def transacted (s : State) (i : Instr) : State :=
  takeResponse (respWord .ok (commandData i (commandEffect i s))) (commandEffect i s)

theorem transact_encode (i : Instr) (s : State) :
    transact (encode i) s = .next (transacted s i) := by
  have h := (executeWord_of_ok (decodeOfEncode i) s).trans (exec_eq_respond_commandData i s)
  exact (transact_of_executeWord h (respond_port _ _ _)).trans rfl

/-- No command stops a run, so a run is a fold. -/
theorem runWords_encode (is : List Instr) (s : State) :
    runWords (is.map encode) s = .next (is.foldl transacted s) := by
  induction is generalizing s with
  | nil => rfl
  | cons i is ih => exact (runWords_cons_of_transact (transact_encode i s) _).trans (ih _)

theorem transacted_wrmat (row : Fin 8) (a : Byte) (s : State) :
    transacted s (.wrmat row a) = { s with
      mat := s.mat.set row a
      port := .ready
      taken := s.taken ++ [respWord .ok 0x00] } := rfl

theorem transacted_wrconst (a : Byte) (s : State) :
    transacted s (.wrconst a) = { s with
      const := a
      port := .ready
      taken := s.taken ++ [respWord .ok 0x00] } := rfl

theorem transacted_build (s : State) :
    transacted s .build = { s with
      sbox := generateSbox s.mat s.const
      invsbox := generateInverse (generateSbox s.mat s.const)
      valid := true
      port := .ready
      taken := s.taken ++ [respWord .ok 0x00] } := by
  dsimp only [transacted, commandEffect, commandData, takeResponse, activate, writeValid,
    replaceTables]

theorem transacted_sub (a : Byte) {s : State} (hv : s.valid = true) :
    transacted s (.sub a) = { s with
      port := .ready
      taken := s.taken ++ [respWord .ok (tableRead s.sbox a)] } := by
  dsimp only [transacted, commandEffect, commandData, takeResponse]
  rw [ensureInitialized_of_valid hv]

/-! ## LDMAT -/

/-- The matrix `v` with the rows of the list taken from `m`. -/
def withRows (m : Mat) (rows : List (Fin 8)) (v : Mat) : Mat :=
  rows.foldl (fun (v : Mat) (r : Fin 8) => v.set r m[r]) v

theorem withRows_cons (m : Mat) (r : Fin 8) (rows : List (Fin 8)) (v : Mat) :
    withRows m (r :: rows) v = withRows m rows (v.set r m[r]) := rfl

theorem withRows_getElem (m : Mat) (rows : List (Fin 8)) (v : Mat) (k : Fin 8) :
    (withRows m rows v)[k] = if k ∈ rows then m[k] else v[k] := by
  induction rows generalizing v with
  | nil => simp [withRows]
  | cons r rows ih =>
    rw [withRows_cons, ih]
    by_cases hr : r = k
    · simp [hr]
    · have : (r : Nat) ≠ k := Fin.val_ne_of_ne hr
      simp [Ne.symm hr, Vector.getElem_set_ne, this]

/-- All eight rows are the whole matrix. -/
theorem withRows_finRange (m v : Mat) : withRows m (List.finRange 8) v = m :=
  Vector.ext fun k hk => by
    simpa using withRows_getElem m (List.finRange 8) v ⟨k, hk⟩

/-- Row writes from a ready port, one OK response each, change nothing but MAT (R124). -/
theorem foldl_wrmat (m : Mat) (rows : List (Fin 8)) {s : State} (hp : s.port = .ready) :
    (rows.map fun r => Instr.wrmat r m[r]).foldl transacted s =
      { s with
        mat := withRows m rows s.mat
        taken := s.taken ++ List.replicate rows.length (respWord .ok 0x00) } := by
  induction rows generalizing s with
  | nil => simp [withRows]
  | cons r rows ih =>
    rw [List.map_cons, List.foldl_cons, transacted_wrmat, ih (by rfl), ← hp]
    simp [withRows_cons, List.replicate_succ]

/-- LDMAT is the eight row writes, then the write of the constant. -/
theorem foldl_ldmat (m : Mat) (c : Byte) {s : State} (hp : s.port = .ready) :
    (ldmat m c).foldl transacted s =
      { s with
        mat := m
        const := c
        taken := s.taken ++ List.replicate 9 (respWord .ok 0x00) } := by
  rw [ldmat, List.foldl_append, foldl_wrmat m _ hp, withRows_finRange, List.foldl_cons,
    List.foldl_nil, transacted_wrconst, ← hp, List.append_assoc]
  rfl

/-- Settles O58: the run is the fold over LDMAT's commands. -/
theorem ldmatLoadsMatrixAndConstant : Obligations.LdmatLoadsMatrixAndConstant := by
  intro m c s hp
  refine ⟨by rfl, ?_⟩
  rw [runWords_encode, foldl_ldmat m c hp]

/-! ## BUILDTABLE -/

/-- While VALID is 1, SUB after SUB looks up the table and changes nothing (R163). -/
theorem foldl_sub (d : List Byte) {s : State} (hp : s.port = .ready) (hv : s.valid = true) :
    (d.map Instr.sub).foldl transacted s =
      { s with taken := s.taken ++ d.map fun x => respWord .ok (tableRead s.sbox x) } := by
  induction d generalizing s with
  | nil => simp
  | cons x d ih =>
    rw [List.map_cons, List.foldl_cons, transacted_sub x hv, ih (by rfl) (by exact hv),
      ← hp]
    simp

theorem buildtable_eq (m : Mat) (c : Byte) :
    buildtable m c = ldmat m c ++ [.build] ++ allBytes.map .sub := by
  rw [buildtable, allBytes, List.map_map]
  rfl

/-- After LDMAT, BUILD generates the pair of the operands, and the SUBs read its table in order. -/
theorem foldl_buildtable (m : Mat) (c : Byte) {s : State} (hp : s.port = .ready) :
    (buildtable m c).foldl transacted s =
      { s with
        mat := m
        const := c
        sbox := generateSbox m c
        invsbox := generateInverse (generateSbox m c)
        valid := true
        taken := s.taken ++ List.replicate 10 (respWord .ok 0x00) ++
          allBytes.map fun x => respWord .ok (tableRead (generateSbox m c) x) } := by
  rw [buildtable_eq, List.foldl_append, List.foldl_append, foldl_ldmat m c hp, List.foldl_cons,
    List.foldl_nil, transacted_build, foldl_sub _ (by rfl) (by rfl), ← hp]
  simp only [List.append_assoc, List.replicate_succ' (n := 9)]

theorem length_buildtable (m : Mat) (c : Byte) : (buildtable m c).length = 266 := by
  simp only [buildtable, ldmat, List.length_append, List.length_map, List.length_range,
    List.length_finRange, List.length_singleton, Nat.reduceAdd]

/-- Settles O59: the run is the fold over BUILDTABLE's commands. -/
theorem buildtableReadsBackTheTable : Obligations.BuildtableReadsBackTheTable := by
  intro m c s hp
  refine ⟨buildtable_eq m c, length_buildtable m c, _, runWords_encode _ s, ?_⟩
  rw [foldl_buildtable m c hp]
  simp only [and_self]

end Sys2Proof.Machine
end

section
/-! PROOFS. A command word tested field by field (R65, R68): the words that decode to a command, and
the stray bits for which its illegal neighbours are rejected. -/

namespace Sys2Proof

open Sys2Proof.Machine

/-- A word decodes to a command exactly when it is the encoder's word of it (R64). -/
theorem decode_eq_ok_iff (w : Word32) (i : Instr) : decode w = .ok i ↔ encode i = w :=
  ⟨encodeOfDecode w i, fun h => h ▸ decodeOfEncode i⟩

theorem and_mask_of_decode {w : Word32} {i : Instr} (h : decode w = .ok i) :
    w &&& (rowOf i).mask = (rowOf i).pattern :=
  (decode_eq_ok_iff w i).mp h ▸ encode_and_mask i

/-- The rows stand in the order of their opcodes, so the opcode alone selects the row (R65). -/
theorem opcodeMap_getElem?_opField (i : Instr) :
    opcodeMap[(opField (encode i)).toNat]? = some (rowOf i) := by
  cases i <;> simp [encode, rowOf, opcodeMap]

/-- Commands with the same opcode belong to the same row. -/
theorem rowOf_eq_of_opField {i j : Instr} (h : opField (encode i) = opField (encode j)) :
    rowOf i = rowOf j := by
  have hi := opcodeMap_getElem?_opField i
  rw [h, opcodeMap_getElem?_opField j] at hi
  exact (Option.some.inj hi).symm

theorem opField_encode_le (i : Instr) : (opField (encode i)).toNat ≤ 0x0D := by
  cases i <;> simp [encode]

/-- A word with the opcode of a command, but not the fixed bits of the command's row, has a stray
bit (R68). -/
theorem decode_of_mismatch {w : Word32} {i : Instr} (hop : opField w = opField (encode i))
    (h : w &&& (rowOf i).mask ≠ (rowOf i).pattern) : decode w = .error .reservedField := by
  refine decode_of_not_legal (hop ▸ opField_encode_le i) (Bool.eq_false_iff.mpr fun hlegal => h ?_)
  obtain ⟨j, rfl⟩ := (legalWord_iff_exists_encode w).mp hlegal
  rw [← rowOf_eq_of_opField hop]
  exact encode_and_mask j

/-- A field that the mask keeps whole is, in a matching word, the pattern's. -/
theorem extractLsb'_of_and {w mask pattern : Word32} (h : w &&& mask = pattern) {start len : Nat}
    (hmask : mask.extractLsb' start len = BitVec.allOnes len) :
    w.extractLsb' start len = pattern.extractLsb' start len := by
  rw [← h, BitVec.extractLsb'_and, hmask, BitVec.and_allOnes]

/-- A word with the opcode of a command is rejected for any bit that strays from the command's
pattern in a field that the mask keeps whole (R64, R68). -/
theorem decode_of_stray {w : Word32} (i : Instr) (start len : Nat)
    (hop : opField w = opField (encode i))
    (hmask : (rowOf i).mask.extractLsb' start len = BitVec.allOnes len)
    (hw : w.extractLsb' start len ≠ (rowOf i).pattern.extractLsb' start len) :
    decode w = .error .reservedField :=
  decode_of_mismatch hop fun h => hw (extractLsb'_of_and h hmask)

end Sys2Proof
end

section
/-! PROOFS. The field arithmetic against polynomials over GF(2) (R100 to R102): a byte as a
polynomial, and as an element of the quotient ring by the reduction polynomial, in which `gmul` is
the product. -/

namespace Sys2Proof.Machine

open Polynomial

/-! ## Bytes as polynomials -/

theorem coeff_toPoly (a : Byte) (n : ℕ) : (toPoly a).coeff n = gf2 (a.getLsbD n) := by
  have term (i : ℕ) : (if a.getLsbD i then (X : (ZMod 2)[X]) ^ i else 0).coeff n =
      if n = i then gf2 (a.getLsbD i) else 0 := by
    cases a.getLsbD i <;> simp [gf2, coeff_X_pow]
  rw [toPoly, Fin.sum_univ_eq_sum_range (fun i => if a.getLsbD i then (X : (ZMod 2)[X]) ^ i else 0),
    finsetSum_coeff]
  simp only [term, Finset.sum_ite_eq, Finset.mem_range]
  split_ifs with h
  · rfl
  · rw [BitVec.getLsbD_of_ge a n (not_lt.mp h)]
    rfl

theorem toPoly_injective : Function.Injective toPoly := fun a b h =>
  BitVec.eq_of_getLsbD_eq fun i _ => gf2_injective (by rw [← coeff_toPoly, h, coeff_toPoly])

theorem degree_toPoly_lt (a : Byte) : (toPoly a).degree < 8 := by
  refine (degree_lt_iff_coeff_zero _ 8).mpr fun n hn => ?_
  rw [coeff_toPoly, BitVec.getLsbD_of_ge a n hn]
  rfl

/-- Addition in the field is XOR (R16). -/
@[simp] theorem toPoly_xor (a b : Byte) : toPoly (a ^^^ b) = toPoly a + toPoly b := by
  ext n
  simp [coeff_toPoly]

@[simp] theorem toPoly_zero : toPoly 0#8 = 0 := by simp [toPoly]

@[simp] theorem toPoly_one : toPoly 1#8 = 1 := by simp [toPoly]

@[simp] theorem toPoly_two : toPoly 2#8 = X := by simp [toPoly, Fin.sum_univ_eight]

theorem monic_fieldPoly : fieldPoly.Monic := by
  unfold fieldPoly
  monicity!

theorem degree_fieldPoly : fieldPoly.degree = 8 := by
  unfold fieldPoly
  compute_degree!

/-- Below X ^ 8 the reduction polynomial is the byte 0x1B (R101). -/
theorem fieldPoly_eq : fieldPoly = X ^ 8 + toPoly 0x1B := by
  simp [fieldPoly, toPoly, Fin.sum_univ_eight]
  ring

/-- The polynomial of a byte is already reduced. -/
theorem toPoly_modByMonic (a : Byte) : toPoly a %ₘ fieldPoly = toPoly a :=
  (modByMonic_eq_self_iff monic_fieldPoly).mpr ((degree_toPoly_lt a).trans_eq degree_fieldPoly.symm)

/-! ## Shifts -/

/-- Shifting left multiplies by X, but for the bit shifted out. -/
theorem X_mul_toPoly (x : Byte) :
    X * toPoly x = toPoly (x <<< 1) + C (gf2 (x.getLsbD 7)) * X ^ 8 := by
  ext n
  cases n with
  | zero => simp [coeff_toPoly, gf2, -ite_mul]
  | succ n =>
    simp only [coeff_X_mul, coeff_add, coeff_C_mul, coeff_X_pow, coeff_toPoly,
      BitVec.getLsbD_shiftLeft]
    rcases lt_trichotomy n 7 with h | rfl | h
    · have : n + 1 < 8 := by omega
      simp [this, h.ne]
    · simp [gf2]
    · simp [BitVec.getLsbD_of_ge x n h, h.ne']

/-- A byte is its bit 0 and, times X, what is left after shifting right. -/
theorem toPoly_eq_C_add_X_mul (y : Byte) :
    toPoly y = C (gf2 (y.getLsbD 0)) + X * toPoly (y >>> 1) := by
  ext n
  cases n with
  | zero => simp [coeff_toPoly]
  | succ n => simp [coeff_toPoly, Nat.add_comm]

/-- Settles O26: what the XOR with 0x11B leaves in bits 0 to 7 is the XOR with 0x1B. -/
theorem reductionStepReadingsAgree : Obligations.ReductionStepReadingsAgree := by
  intro x
  have wide : (x.setWidth 9 <<< 1).setWidth 8 = x <<< 1 := by
    ext i hi
    simp
  cases h : x.getLsbD 7 <;>
    simp only [xtime, h, reductionPoly, cond_true, cond_false, BitVec.setWidth_xor, wide]
  · exact (BitVec.xor_zero).symm
  · rfl

/-- The reduction step is multiplication by X, reduced once (R101). -/
theorem X_mul_toPoly_eq_xtime (x : Byte) :
    X * toPoly x = toPoly (xtime x) + C (gf2 (x.getLsbD 7)) * fieldPoly := by
  rw [X_mul_toPoly, reductionStepReadingsAgree, fieldPoly_eq, toPoly_xor]
  cases x.getLsbD 7 with
  | false => simp [gf2]
  | true =>
    have cancel : toPoly 0x1B + toPoly 0x1B = 0 := by rw [← toPoly_xor]; simp
    simp only [gf2, if_true, map_one, one_mul]
    linear_combination -cancel

/-! ## Bytes as elements of the quotient ring -/

/-- The element that a byte denotes in GF(2)[X] modulo the reduction polynomial (R102). -/
noncomputable def toField (a : Byte) : AdjoinRoot fieldPoly := AdjoinRoot.mk fieldPoly (toPoly a)

theorem toField_injective : Function.Injective toField := by
  intro a b h
  have hmod := modByMonic_eq_of_dvd_sub monic_fieldPoly (AdjoinRoot.mk_eq_mk.mp h)
  rw [toPoly_modByMonic, toPoly_modByMonic] at hmod
  exact toPoly_injective hmod

@[simp] theorem toField_xor (a b : Byte) : toField (a ^^^ b) = toField a + toField b := by
  simp [toField]

@[simp] theorem toField_zero : toField 0#8 = 0 := by simp [toField]

@[simp] theorem toField_one : toField 1#8 = 1 := by simp [toField]

@[simp] theorem toField_two : toField 2#8 = AdjoinRoot.root fieldPoly := by simp [toField]

theorem toField_xtime (x : Byte) : toField (xtime x) = AdjoinRoot.root fieldPoly * toField x := by
  have h := congrArg (AdjoinRoot.mk fieldPoly) (X_mul_toPoly_eq_xtime x)
  simpa [toField] using h.symm

/-- One iteration's addend: bit 0 of `y` selects `x` or nothing. -/
theorem toField_addend (acc x y : Byte) :
    toField (bif y.getLsbD 0 then acc ^^^ x else acc) =
      toField acc + AdjoinRoot.of fieldPoly (gf2 (y.getLsbD 0)) * toField x := by
  cases y.getLsbD 0 <;> simp [gf2]

theorem toField_eq_add_root_mul (y : Byte) :
    toField y = AdjoinRoot.of fieldPoly (gf2 (y.getLsbD 0)) +
      AdjoinRoot.root fieldPoly * toField (y >>> 1) := by
  rw [toField, toPoly_eq_C_add_X_mul]
  simp [toField]

/-- The loop of R100 adds the product, as long as it has an iteration left for every bit of `y`. -/
theorem toField_gmulLoop (n : Nat) (acc x y : Byte) (hy : y.toNat < 2 ^ n) :
    toField (gmulLoop n acc x y) = toField acc + toField x * toField y := by
  induction n generalizing acc x y with
  | zero =>
    obtain rfl : y = 0x00 := BitVec.eq_of_toNat_eq (Nat.lt_one_iff.mp hy)
    simp [gmulLoop]
  | succ n ih =>
    have hshift : (y >>> 1).toNat < 2 ^ n := by
      rw [BitVec.toNat_ushiftRight, Nat.shiftRight_eq_div_pow]
      omega
    rw [gmulLoop, ih _ _ _ hshift, toField_addend, toField_xtime, toField_eq_add_root_mul y]
    ring

/-- R102, in the quotient ring. -/
@[simp] theorem toField_gmul (a b : Byte) : toField (gmul a b) = toField a * toField b := by
  simp [gmul, toField_gmulLoop 8 _ a b b.isLt]

/-- Settles O27: both sides are the same in the quotient ring, and both have degree below 8. -/
theorem gmulIsThePolynomialProduct : Obligations.GmulIsThePolynomialProduct := by
  intro a b
  have hdvd : fieldPoly ∣ toPoly (gmul a b) - toPoly a * toPoly b :=
    AdjoinRoot.mk_eq_mk.mp ((toField_gmul a b).trans (map_mul _ _ _).symm)
  rw [← modByMonic_eq_of_dvd_sub monic_fieldPoly hdvd, toPoly_modByMonic]

end Sys2Proof.Machine
end

section
/-! PROOFS. GF(2^8) is a field (R103, R104, R107, R108), and the commands that compute in it (R105,
R106). -/

namespace Sys2Proof.Machine

/-! ## The laws of a commutative ring -/

theorem gmul_comm (a b : Byte) : gmul a b = gmul b a :=
  toField_injective (by simp only [toField_gmul, mul_comm])

theorem gmul_assoc (a b c : Byte) : gmul (gmul a b) c = gmul a (gmul b c) :=
  toField_injective (by simp only [toField_gmul, mul_assoc])

theorem gmul_xor (a b c : Byte) : gmul a (b ^^^ c) = gmul a b ^^^ gmul a c :=
  toField_injective (by simp only [toField_gmul, toField_xor, mul_add])

@[simp] theorem gmul_zero (a : Byte) : gmul a 0#8 = 0#8 := toField_injective (by simp)

@[simp] theorem zero_gmul (a : Byte) : gmul 0#8 a = 0#8 := toField_injective (by simp)

@[simp] theorem gmul_one (a : Byte) : gmul a 1#8 = a := toField_injective (by simp)

/-- The elements that bytes denote are closed under powers. -/
theorem exists_toField_eq_pow (x : Byte) (n : Nat) : ∃ y, toField y = toField x ^ n := by
  induction n with
  | zero => exact ⟨1#8, by simp⟩
  | succ n ih =>
    obtain ⟨y, hy⟩ := ih
    exact ⟨gmul y x, by rw [toField_gmul, hy, pow_succ]⟩

/-! ## Inverses exist

The Frobenius map a ↦ a ^ 2 is a homomorphism, and its eighth power fixes the root, so that
a ^ 256 = a for all a, and a ^ 255 is idempotent. The only idempotents are 0 and 1, so a ^ 255 = 1
where a ≠ 0. -/

theorem toField_iterate_square (x : Byte) (n : Nat) :
    toField ((fun y => gmul y y)^[n] x) = toField x ^ 2 ^ n := by
  induction n with
  | zero => simp
  | succ n ih => rw [Function.iterate_succ_apply', toField_gmul, ih, ← pow_two, ← pow_mul, pow_succ]

/-- The root is the byte 0x02, and eight squarings lead back to it. -/
theorem root_pow_256 : AdjoinRoot.root fieldPoly ^ 2 ^ 8 = AdjoinRoot.root fieldPoly := by
  have h : (fun y : Byte => gmul y y)^[8] 2#8 = 2#8 := by decide +kernel
  rw [← toField_two, ← toField_iterate_square, h]

theorem pow_256 (a : AdjoinRoot fieldPoly) : a ^ 2 ^ 8 = a := by
  let frobenius := FiniteField.frobeniusAlgHom (ZMod 2) (AdjoinRoot fieldPoly)
  have pow_apply (b : AdjoinRoot fieldPoly) : (frobenius ^ 8) b = b ^ 2 ^ 8 := by
    rw [AlgHom.coe_pow, FiniteField.coe_frobeniusAlgHom, pow_iterate, ZMod.card]
  have h : frobenius ^ 8 = AlgHom.id (ZMod 2) _ :=
    AdjoinRoot.algHom_ext ((pow_apply _).trans root_pow_256)
  rw [← pow_apply, h, AlgHom.id_apply]

theorem eq_zero_or_one_of_gmul_self : ∀ e : Byte, gmul e e = e → e = 0#8 ∨ e = 1#8 := by decide

/-- R104, existence: the inverse of `x` is its power 254. -/
theorem exists_gmul_eq_one {x : Byte} (hx : x ≠ 0#8) : ∃ y, gmul x y = 1#8 := by
  obtain ⟨y, hy⟩ := exists_toField_eq_pow x 254
  have hpow : toField (gmul x y) = toField x ^ 255 := by
    rw [toField_gmul, hy, ← pow_succ']
  have hx256 : toField x * toField (gmul x y) = toField x := by
    rw [hpow, ← pow_succ']
    exact pow_256 (toField x)
  have idempotent : gmul (gmul x y) (gmul x y) = gmul x y := by
    refine toField_injective ?_
    calc toField (gmul (gmul x y) (gmul x y))
        = toField x * toField (gmul x y) * toField y := by simp only [toField_gmul]; ring
      _ = toField (gmul x y) := by rw [hx256, toField_gmul]
  refine ⟨y, (eq_zero_or_one_of_gmul_self _ idempotent).resolve_left fun h => hx ?_⟩
  rw [h, toField_zero, mul_zero, ← toField_zero] at hx256
  exact (toField_injective hx256).symm

/-- R104, uniqueness: there is at most one inverse, as in any commutative monoid. -/
theorem gmul_eq_one_unique {x i j : Byte} (hi : gmul x i = 1#8) (hj : gmul x j = 1#8) : i = j :=
  calc i = gmul i (gmul x j) := by rw [hj, gmul_one]
    _ = gmul (gmul x i) j := by rw [← gmul_assoc, gmul_comm i x]
    _ = j := by rw [hi, gmul_comm, gmul_one]

theorem gmul_eq_zero_iff (a b : Byte) : gmul a b = 0#8 ↔ a = 0#8 ∨ b = 0#8 := by
  refine ⟨fun h => or_iff_not_imp_left.mpr fun ha => ?_, ?_⟩
  · obtain ⟨i, hi⟩ := exists_gmul_eq_one ha
    calc b = gmul (gmul a i) b := by rw [hi, gmul_comm, gmul_one]
      _ = gmul i (gmul a b) := by rw [gmul_comm a, gmul_assoc]
      _ = 0#8 := by rw [h, gmul_zero]
  · rintro (rfl | rfl) <;> simp

/-! ## The inverse lookup -/

@[simp] theorem ginv_zero : ginv 0#8 = 0#8 := if_pos rfl

theorem ginv_of_ne_zero {x : Byte} (hx : x ≠ 0#8) :
    ginv x = (allBytes.find? fun i => gmul x i == 1#8).getD 0#8 := if_neg hx

theorem gmul_ginv {x : Byte} (hx : x ≠ 0#8) : gmul x (ginv x) = 1#8 := by
  rw [ginv_of_ne_zero hx]
  cases h : allBytes.find? fun i => gmul x i == 1#8 with
  | some i => simpa using List.find?_some h
  | none =>
    obtain ⟨y, hy⟩ := exists_gmul_eq_one hx
    simpa [hy] using List.find?_eq_none.mp h y (mem_allBytes y)

theorem ginv_eq_of_gmul {x i : Byte} (h : gmul x i = 1#8) : ginv x = i := by
  refine gmul_eq_one_unique (gmul_ginv ?_) h
  rintro rfl
  simp at h

theorem ginv_ginv (x : Byte) : ginv (ginv x) = x := by
  by_cases hx : x = 0#8
  · simp [hx]
  · exact ginv_eq_of_gmul ((gmul_comm _ _).trans (gmul_ginv hx))

/-- Settles O28: the identities, one lemma each. -/
theorem fieldIdentities : Obligations.FieldIdentities := fun a =>
  ⟨gmul_zero a, gmul_one a, gmul_ginv, ginv_zero⟩

/-- Settles O29: the ring laws hold in the quotient ring, and the last follows from inverses. -/
theorem fieldLaws : Obligations.FieldLaws := ⟨gmul_comm, gmul_assoc, gmul_xor, gmul_eq_zero_iff⟩

/-- Settles O30: the search finds an inverse, and a smaller candidate would be the same one. -/
theorem ginvIsTheFirstCandidate : Obligations.GinvIsTheFirstCandidate :=
  ⟨ginv_zero, fun _ hx =>
    ⟨gmul_ginv hx, fun _ hlt hi => BitVec.lt_irrefl _ (ginv_eq_of_gmul hi ▸ hlt)⟩⟩

/-- Settles O31: an inverse of the inverse is the byte itself, so `ginv` is an involution. -/
theorem ginvIsAnInvolution : Obligations.GinvIsAnInvolution :=
  ⟨fun x hx => ⟨ginv x, gmul_ginv hx, fun _ hi => (ginv_eq_of_gmul hi).symm⟩,
    Function.Involutive.bijective ginv_ginv, ginv_ginv⟩

/-! ## The commands -/

/-- Settles O13: GMUL writes only its response; its words are the encoder's, and ROW and RSV are a
field that its mask keeps whole. -/
theorem gmulRespondsTheProduct : Obligations.GmulRespondsTheProduct := by
  refine ⟨fun a b s => rfl, fun w => ⟨fun h => ?_, and_mask_of_decode⟩, fun w hop hstray => ?_,
    fun a => ⟨gmul_zero a, zero_gmul a, gmul_one a⟩, decodeOfEncode (.gmul 0x57 0x83), by decide⟩
  · exact (decode_eq_ok_iff w _).mpr (packWord_of_and_ab h)
  · exact decode_of_stray (.gmul 0 0) 16 8 hop rfl hstray

/-- Settles O14: GINV writes only its response; its words are the encoder's, and B, ROW and RSV are
a field that its mask keeps whole. -/
theorem ginvRespondsTheInverse : Obligations.GinvRespondsTheInverse := by
  refine ⟨fun a s => rfl, fun w => ⟨fun h => ?_, and_mask_of_decode⟩, fun w hop hstray => ?_,
    ginv_zero, ginv_eq_of_gmul (gmul_one 0x01), decodeOfEncode (.ginv 0x53),
    ginv_eq_of_gmul (by decide)⟩
  · exact (decode_eq_ok_iff w _).mpr (packWord_of_and_a h)
  · exact decode_of_stray (.ginv 0) 8 16 hop rfl hstray

end Sys2Proof.Machine
end

section
/-! PROOFS. The affine transform (R120 to R122): its bits as parities, and its laws, which are those of
a matrix over GF(2). -/

namespace Sys2Proof.Machine

open Matrix

/-! ## The bits -/

/-- A natural number over GF(2) is its parity. -/
theorem gf2_decide_odd (n : Nat) : gf2 (decide (n % 2 = 1)) = (n : ZMod 2) := by
  rw [← ZMod.natCast_mod n 2]
  rcases Nat.mod_two_eq_zero_or_one n with h | h <;> simp [gf2, h]

/-- The parity of a row with the input counts the ones of their AND (R120). -/
theorem rowParity_eq_decide_card_odd (row x : Byte) :
    rowParity row x =
      decide ((Finset.univ.filter fun j : Fin 8 => (row &&& x).getLsbD j).card % 2 = 1) := by
  refine gf2_injective ?_
  calc gf2 (rowParity row x)
      = ∑ j : Fin 8, gf2 ((row &&& x).getLsbD j) := by
        simp only [gf2_rowParity, toVec, BitVec.getLsbD_and, gf2_and]
    _ = ((Finset.univ.filter fun j : Fin 8 => (row &&& x).getLsbD j).card : ZMod 2) :=
        Finset.sum_boole _ _
    _ = _ := (gf2_decide_odd _).symm

/-- Settles O32: a bit of the result is the parity of its row with the input, XOR the constant's. -/
theorem affineBitsAreParities : Obligations.AffineBitsAreParities := by
  intro x m c i
  rw [getLsbD_affine, rowParity_eq_decide_card_odd]

/-! ## The linear part -/

@[simp] theorem toVec_xor (x y : Byte) : toVec (x ^^^ y) = toVec x + toVec y := by
  funext i
  simp [toVec]

@[simp] theorem linear_zero (m : Mat) : linear m 0#8 = 0#8 :=
  (toVec_eq_zero_iff _).mp
    (by rw [toVec_linear, (toVec_eq_zero_iff 0#8).mpr rfl, mulVec_zero])

theorem linear_xor (m : Mat) (x y : Byte) : linear m (x ^^^ y) = linear m x ^^^ linear m y :=
  toVec_injective (by simp only [toVec_linear, toVec_xor, mulVec_add])

theorem toMatrix_identityMat : toMatrix identityMat = 1 := by decide

theorem toMatrix_zeroMat : toMatrix zeroMat = 0 := by decide

@[simp] theorem linear_identityMat (x : Byte) : linear identityMat x = x :=
  toVec_injective (by rw [toVec_linear, toMatrix_identityMat, one_mulVec])

@[simp] theorem linear_zeroMat (x : Byte) : linear zeroMat x = 0#8 :=
  (toVec_eq_zero_iff _).mp (by rw [toVec_linear, toMatrix_zeroMat, zero_mulVec])

/-! ## The laws -/

@[simp] theorem affine_zero (m : Mat) (c : Byte) : affine 0#8 m c = c := by
  simp [affine]

theorem affine_xor (x y : Byte) (m : Mat) (c : Byte) :
    affine (x ^^^ y) m c = affine x m c ^^^ affine y m c ^^^ c := by
  simp only [affine, linear_xor]
  calc linear m x ^^^ linear m y ^^^ c
      = linear m x ^^^ c ^^^ linear m y := by ac_rfl
    _ = linear m x ^^^ c ^^^ (linear m y ^^^ c) ^^^ c := by
        rw [BitVec.xor_assoc _ _ c, BitVec.xor_assoc _ c c, BitVec.xor_self, BitVec.xor_zero]

@[simp] theorem affine_identityMat (x c : Byte) : affine x identityMat c = x ^^^ c := by
  simp [affine]

@[simp] theorem affine_zeroMat (x c : Byte) : affine x zeroMat c = c := by
  simp [affine]

theorem affine_eq_affine_iff (x y : Byte) (m : Mat) (c : Byte) :
    affine x m c = affine y m c ↔ linear m (x ^^^ y) = 0#8 := by
  rw [affine, affine, BitVec.xor_left_inj, linear_xor, BitVec.xor_eq_zero_iff]

/-- Two inputs with the same result differ by an element of the kernel, whatever the constant is. -/
theorem affine_bijective_iff (m : Mat) (c : Byte) :
    Function.Bijective (fun x => affine x m c) ↔ IsUnit (toMatrix m) := by
  rw [← Finite.injective_iff_bijective, isUnit_toMatrix_iff]
  constructor
  · intro hinj x hx
    exact hinj ((affine_eq_affine_iff x 0#8 m c).mpr (by simpa using hx))
  · intro hker x y hxy
    exact BitVec.xor_eq_zero_iff.mp (hker _ ((affine_eq_affine_iff x y m c).mp hxy))

/-- Settles O33: the laws, one lemma each. -/
theorem affineLaws : Obligations.AffineLaws :=
  ⟨affine_zero, affine_xor, affine_identityMat, affine_zeroMat, affine_bijective_iff⟩

end Sys2Proof.Machine
end

section
/-! PROOFS. The affine engine's commands (R124 to R128). -/

namespace Sys2Proof.Machine

/-! ## The staging registers -/

/-- A row write reads back at its row, and nowhere else (R124). -/
theorem writeMat_getElem (row r : Fin 8) (a : Byte) (s : State) :
    (writeMat row a s).mat[r] = if r = row then a else s.mat[r] := by
  by_cases h : r = row
  · simp [h]
  · have : (row : Nat) ≠ r := Fin.val_ne_of_ne (Ne.symm h)
    simp [h, Vector.getElem_set_ne, this]

/-- Writing the value that a row holds changes nothing (R124). -/
theorem writeMat_getElem_self (row : Fin 8) (s : State) : writeMat row s.mat[row] s = s := by
  simp [writeMat]

/-- Settles O17: WRMAT writes its row and its response; its words are the encoder's, and B and RSV are
fields that its mask keeps whole. -/
theorem wrmatWritesOneRow : Obligations.WrmatWritesOneRow := by
  refine ⟨fun row a s => ⟨(writeMat row a s).mat, rfl, ?_, fun r hr => ?_⟩,
    fun w => ⟨fun h => ?_, and_mask_of_decode⟩, fun w hop hstray => ?_, fun row s => ?_,
    decodeOfEncode (.wrmat 3 0x8F)⟩
  · rw [writeMat_getElem, if_pos rfl]
  · rw [writeMat_getElem, if_neg hr]
  · exact (decode_eq_ok_iff w _).mpr (packWord_of_and_row_a h)
  · rcases hstray with hb | hrsv
    · exact decode_of_stray (.wrmat 0 0) 8 8 hop rfl hb
    · exact decode_of_stray (.wrmat 0 0) 19 5 hop rfl hrsv
  · exact congrArg (fun t => Host.Outcome.next (respond .ok 0x00 t)) (writeMat_getElem_self row s)

/-- RDMAT responds the row that it reads (R125). -/
theorem exec_rdmat {row : Fin 8} {s : State} {d : Byte} (h : s.mat[row] = d) :
    exec (.rdmat row) s = .next { s with port := .responding (respWord .ok d) } := h ▸ rfl

/-- Settles O18: RDMAT writes only its response; its words are the encoder's, and A with B, and RSV,
are fields that its mask keeps whole. -/
theorem rdmatReadsOneRow : Obligations.RdmatReadsOneRow := by
  refine ⟨fun row s => exec_rdmat rfl, fun w => ⟨fun h => ?_, and_mask_of_decode⟩,
    fun w hop hstray => ?_, fun row => exec_rdmat rfl, fun s t hwrite => exec_rdmat ?_,
    decodeOfEncode (.rdmat 3)⟩
  · exact (decode_eq_ok_iff w _).mpr (packWord_of_and_row h)
  · rcases hstray with hab | hrsv
    · exact decode_of_stray (.rdmat 0) 0 16 hop rfl hab
    · exact decode_of_stray (.rdmat 0) 19 5 hop rfl hrsv
  · obtain ⟨d, rfl⟩ := eq_respond_of_exec hwrite
    exact writeMat_getElem 3 3 0x8F s

/-- Settles O19: WRCONST writes CONST and its response; its words are the encoder's, and B, ROW and
RSV are a field that its mask keeps whole. -/
theorem wrconstWritesTheConstant : Obligations.WrconstWritesTheConstant := by
  refine ⟨fun a s => rfl, fun w => ⟨fun h => ?_, and_mask_of_decode⟩, fun w hop hstray => ?_,
    decodeOfEncode (.wrconst 0x63)⟩
  · exact (decode_eq_ok_iff w _).mpr (packWord_of_and_a h)
  · exact decode_of_stray (.wrconst 0) 8 16 hop rfl hstray

/-- Settles O20: RDCONST writes only its response, and CONST is 0x63 after reset; its word is the
encoder's, and all bits below OP are a field that its mask keeps whole. -/
theorem rdconstReadsTheConstant : Obligations.RdconstReadsTheConstant := by
  refine ⟨fun s => rfl, fun w => ⟨fun h => ?_, and_mask_of_decode⟩, fun w hop hstray => ?_, rfl⟩
  · exact (decode_eq_ok_iff w _).mpr (packWord_of_and_none h)
  · exact decode_of_stray .rdconst 0 24 hop rfl hstray

/-! ## The transform -/

/-- AFFINE responds the transform by the staging registers (R128). -/
theorem exec_affine {a d : Byte} {s : State} (h : affine a s.mat s.const = d) :
    exec (.affine a) s = .next { s with port := .responding (respWord .ok d) } := h ▸ rfl

/-- Settles O15: AFFINE writes only its response, which the laws of the transform give in the corner
cases; its words are the encoder's, and B, ROW and RSV are a field that its mask keeps whole. -/
theorem affineRespondsTheTransform : Obligations.AffineRespondsTheTransform := by
  refine ⟨fun a s => exec_affine rfl, fun w => ⟨fun h => ?_, and_mask_of_decode⟩,
    fun w hop hstray => ?_, fun s => exec_affine (affine_zero _ _),
    fun a s hmat => exec_affine ?_, fun a s hmat hconst => exec_affine ?_,
    decodeOfEncode (.affine 0xCA), by decide⟩
  · exact (decode_eq_ok_iff w _).mpr (packWord_of_and_a h)
  · exact decode_of_stray (.affine 0) 8 16 hop rfl hstray
  · rw [hmat, affine_zeroMat]
  · rw [hmat, hconst, affine_identityMat]
    exact BitVec.xor_zero

end Sys2Proof.Machine
end

section
/-! PROOFS. The inverse table (R142 to R145): the largest preimage of each value that the table produces,
and the sentinel for every other. -/

namespace Sys2Proof.Machine

/-! ## Which index an entry keeps -/

theorem pairwise_lt_allBytes : allBytes.Pairwise (· < ·) := by
  refine List.pairwise_map.mpr (List.pairwise_lt_range.imp_of_mem fun hi hj hlt => ?_)
  rw [List.mem_range] at hi hj
  simpa [BitVec.lt_def, Nat.mod_eq_of_lt hi, Nat.mod_eq_of_lt hj] using hlt

/-- The search runs downwards, so what it finds is the largest preimage (R143). -/
theorem isGreatest_generateInverse (t : Table) (x : Byte) :
    IsGreatest {i | tableRead t i = tableRead t x}
      (tableRead (generateInverse t) (tableRead t x)) := by
  obtain ⟨j, hj⟩ : ∃ j, allBytes.reverse.find? (tableRead t · == tableRead t x) = some j :=
    Option.isSome_iff_exists.mp (List.find?_isSome.mpr ⟨x, by simp [mem_allBytes]⟩)
  rw [tableRead_generateInverse, hj, Option.getD_some]
  obtain ⟨hvalue, before, after, hsplit, hbefore⟩ := List.find?_eq_some_iff_append.mp hj
  refine ⟨by simpa using hvalue, fun i hi => ?_⟩
  have hdown : (before ++ j :: after).Pairwise (· > ·) :=
    hsplit ▸ List.pairwise_reverse.mpr pairwise_lt_allBytes
  have hmem : i ∈ before ++ j :: after := hsplit ▸ List.mem_reverse.mpr (mem_allBytes i)
  rcases List.mem_append.mp hmem with hi' | hi'
  · exact absurd hi (by simpa using hbefore i hi')
  · rcases List.mem_cons.mp hi' with rfl | hafter
    · exact BitVec.le_refl i
    · obtain ⟨_, htail, _⟩ := List.pairwise_append.mp hdown
      exact BitVec.le_of_lt (List.rel_of_pairwise_cons htail hafter)

/-- Settles O34: the entry is the greatest of the indices with that value, of which `x` is one. -/
theorem inverseKeepsTheLastIndex : Obligations.InverseKeepsTheLastIndex := fun t x =>
  ⟨(isGreatest_generateInverse t x).1, (isGreatest_generateInverse t x).2 rfl⟩

/-- Settles O35: the search finds no index, so what stood there at the start remains. -/
theorem inverseHoldsTheSentinel : Obligations.InverseHoldsTheSentinel := by
  intro t y hy
  have hnone : allBytes.reverse.find? (tableRead t · == y) = none := by simp [hy]
  rw [tableRead_generateInverse, hnone, Option.getD_none]

/-! ## Bijective and constant tables -/

/-- Where the table is injective, an index is the only preimage of its value. -/
theorem generateInverse_of_injective {t : Table} (ht : Function.Injective (tableRead t)) (x : Byte) :
    tableRead (generateInverse t) (tableRead t x) = x :=
  ht (isGreatest_generateInverse t x).1

/-- Settles O36: injectivity gives the one side, and as every `y` is produced, the other. -/
theorem inverseOfBijectiveTable : Obligations.InverseOfBijectiveTable := by
  intro t ht
  refine ⟨generateInverse_of_injective ht.injective, fun y => ?_⟩
  obtain ⟨x, rfl⟩ := ht.surjective y
  rw [generateInverse_of_injective ht.injective]

/-- A table with one value has its last index there, and nothing elsewhere (R149). -/
theorem generateInverse_of_const {t : Table} {c : Byte} (ht : ∀ x, tableRead t x = c) (y : Byte) :
    tableRead (generateInverse t) y = if y = c then 0xFF else 0x00 := by
  split
  next hy =>
    have hlast : 0xFF ≤ tableRead (generateInverse t) (tableRead t 0xFF) :=
      (isGreatest_generateInverse t 0xFF).2 rfl
    rw [hy, ← ht 0xFF]
    exact BitVec.le_antisymm (BitVec.le_def.mpr (Nat.le_of_lt_succ (BitVec.isLt _))) hlast
  next hy => exact inverseHoldsTheSentinel t y fun x hx => hy (hx.symm.trans (ht x))

end Sys2Proof.Machine
end

section
/-! PROOFS. The generated S-box (R140, R146, R147), and the table builder's commands (R148, R149,
R151). -/

namespace Sys2Proof.Machine

/-! ## The generated table -/

/-- Settles O37: the table is `affine` after `ginv`, which is bijective. -/
theorem sboxBijectiveIffInvertible : Obligations.SboxBijectiveIffInvertible := by
  intro m c
  have hcomp : tableRead (generateSbox m c) = (fun x => affine x m c) ∘ ginv :=
    funext (tableRead_generateSbox m c)
  have hginv : Function.Bijective ginv := Function.Involutive.bijective ginv_ginv
  rw [bijectiveTable, hcomp, Function.Bijective.of_comp_iff _ hginv, affine_bijective_iff]

/-- Entry 0 is the constant, since 0 has inverse 0 and no matrix moves it (R147). -/
theorem generateSbox_zero (m : Mat) (c : Byte) : tableRead (generateSbox m c) 0x00 = c := by
  simp only [tableRead_generateSbox, BitVec.ofNat_eq_ofNat, ginv_zero, affine_zero]

/-- Settles O38: the default constant is 0x63. -/
theorem entryZeroIsTheConstant : Obligations.EntryZeroIsTheConstant :=
  ⟨generateSbox_zero, fun m => generateSbox_zero m Config.defaultConstant⟩

/-- The matrix of the spec's examples is invertible: another circulant matrix is its inverse. -/
theorem isUnit_toMatrix_exampleMat : IsUnit (toMatrix exampleMat) :=
  .of_mul_eq_one (toMatrix #v[0xA4, 0x49, 0x92, 0x25, 0x4A, 0x94, 0x29, 0x52]) (by decide)

/-- The entry of the spec's example (R148, R149). -/
theorem generateSbox_exampleMat : tableRead (generateSbox exampleMat 0x63) 0x53 = 0xED := by
  have hinv : ginv 0x53 = 0xCA := ginv_eq_of_gmul (by decide)
  rw [tableRead_generateSbox, hinv]
  decide

/-! ## SBENT -/

/-- SBENT responds an entry of the table that the staging registers generate (R148). -/
theorem exec_sbent {a d : Byte} {s : State} (h : tableRead (generateSbox s.mat s.const) a = d) :
    exec (.sbent a) s = .next { s with port := .responding (respWord .ok d) } := by
  rw [← h, tableRead_generateSbox]
  rfl

theorem build_pair {s t : State} (h : exec .build s = .next t) : pairFrom s.mat s.const t := by
  obtain ⟨d, rfl⟩ := eq_respond_of_exec h
  exact (pairFrom_respond _ _ _ _ _).mpr (pairFrom_activate _ _ s)

/-- Settles O16: SBENT writes only its response, an entry of the generated table; its words are the
encoder's, and B, ROW and RSV are a field that its mask keeps whole. -/
theorem sbentRespondsOneEntry : Obligations.SbentRespondsOneEntry := by
  refine ⟨fun a s => exec_sbent (tableRead_generateSbox _ _ a),
    fun w => ⟨fun h => ?_, and_mask_of_decode⟩, fun w hop hstray => ?_,
    fun s => exec_sbent (generateSbox_zero _ _), fun a s t hbuild => exec_sbent ?_,
    decodeOfEncode (.sbent 0x53), ?_⟩
  · exact (decode_eq_ok_iff w _).mpr (packWord_of_and_a h)
  · exact decode_of_stray (.sbent 0) 8 16 hop rfl hstray
  · obtain ⟨_, _, hsbox⟩ := build_pair hbuild
    rw [hsbox]
  · rw [← tableRead_generateSbox, generateSbox_exampleMat]

/-! ## BUILD -/

/-- What making a pair active leaves, once answered, field by field (R149, R151). -/
theorem respond_activate (m : Mat) (c : Byte) (s : State) :
    respond .ok 0x00 (activate m c s) = { s with
      sbox := generateSbox m c
      invsbox := generateInverse (generateSbox m c)
      valid := true
      port := .responding (respWord .ok 0x00) } := by
  dsimp only [respond, activate, writeValid, replaceTables]

/-- Settles O21: BUILD writes the pair, VALID and its response, and a second BUILD finds its work done;
its word is the encoder's, and all bits below OP are a field that its mask keeps whole. -/
theorem buildActivatesTheStagedPair : Obligations.BuildActivatesTheStagedPair := by
  refine ⟨fun s => congrArg Host.Outcome.next (respond_activate s.mat s.const s),
    fun w => ⟨fun h => ?_, and_mask_of_decode⟩, fun w hop hstray => ?_,
    commandsAreIdempotent .build, fun s t hmat hbuild => ?_, fun s t hmat hconst hbuild => ?_⟩
  · exact (decode_eq_ok_iff w _).mpr (packWord_of_and_none h)
  · exact decode_of_stray .build 0 24 hop rfl hstray
  all_goals obtain ⟨_, hinv, hsbox⟩ := build_pair hbuild
  · rw [hinv, hsbox, hmat]
    have hzero (x : Byte) : tableRead (generateSbox zeroMat s.const) x = s.const := by simp
    exact ⟨hzero, generateInverse_of_const hzero⟩
  · rw [hinv, hsbox, hmat, hconst]
    have hinj := ((sboxBijectiveIffInvertible _ 0x63).mpr isUnit_toMatrix_exampleMat).injective
    refine ⟨generateSbox_exampleMat, ?_⟩
    rw [← generateSbox_exampleMat, generateInverse_of_injective hinj]

/-! ## INIT -/

theorem init_pair {s t : State} (h : exec .init s = .next t) :
    pairFrom Config.defaultMatrix Config.defaultConstant t := by
  obtain ⟨d, rfl⟩ := eq_respond_of_exec h
  exact (pairFrom_respond _ _ _ _ _).mpr (pairFrom_activateDefault s)

/-- While VALID is 1, SUB responds an entry of the active table (R163). -/
theorem exec_sub_of_valid {a d : Byte} {s : State} (hv : s.valid = true)
    (h : tableRead s.sbox a = d) :
    exec (.sub a) s = .next { s with port := .responding (respWord .ok d) } := by
  subst h
  dsimp only [exec, execSub, readSbox, respond]
  rw [ensureInitialized_of_valid hv]

/-- Settles O22: INIT writes the default pair, VALID and its response, and the default matrix is
invertible whatever it is; INIT's word is the encoder's, and all bits below OP are a field that its
mask keeps whole. -/
theorem initActivatesTheDefaultPair : Obligations.InitActivatesTheDefaultPair := by
  refine ⟨fun s => congrArg Host.Outcome.next (respond_activate _ _ s),
    fun w => ⟨fun h => ?_, and_mask_of_decode⟩, fun w hop hstray => ?_,
    fun s t hinit => ?_⟩
  · exact (decode_eq_ok_iff w _).mpr (packWord_of_and_none h)
  · exact decode_of_stray .init 0 24 hop rfl hstray
  · obtain ⟨hvalid, hinv, hsbox⟩ := init_pair hinit
    have hzero : tableRead t.sbox 0x00 = Config.defaultConstant := by
      rw [hsbox, generateSbox_zero]
    have hbij : bijectiveTable t.sbox := by
      rw [hsbox, sboxBijectiveIffInvertible]
      exact defaultMatrixIsInvertible
    refine ⟨hzero, rfl, hbij, fun x => ?_, exec_sub_of_valid hvalid hzero⟩
    rw [hinv, generateInverse_of_injective hbij.injective]

end Sys2Proof.Machine
end

section
/-! PROOFS. SUBSEQ and then INVSUBSEQ on its results, where the active S-box is bijective (R168). -/

namespace Sys2Proof.Machine

theorem commandData_takeResponse (i : Instr) (r : Word10) (s : State) :
    commandData i (takeResponse r s) = commandData i s := by
  cases i <;> rfl

/-- Commands that have no effect while VALID is 1 leave nothing but their responses, whose data are
read from the state at the start. -/
theorem foldl_transacted_of_no_effect (is : List Instr) {s : State} (hp : s.port = .ready)
    (hv : s.valid = true)
    (heffect : ∀ i ∈ is, ∀ u : State, u.valid = true → commandEffect i u = u) :
    is.foldl transacted s =
      { s with taken := s.taken ++ (is.map (commandData · s)).map (respWord .ok) } := by
  induction is generalizing s with
  | nil => simp
  | cons i is ih =>
    obtain ⟨hi, his⟩ := List.forall_mem_cons.mp heffect
    have hfirst : transacted s i = takeResponse (respWord .ok (commandData i s)) s := by
      rw [transacted, hi s hv]
    rw [List.foldl_cons, hfirst, ih (by rfl) (by exact hv) his]
    simp only [commandData_takeResponse]
    simp [takeResponse, ← hp]

/-- The data that SUBSEQ responds from one active table (R166). -/
theorem map_commandData_subseq (d : List Byte) (s : State) :
    (subseq d).map (commandData · s) = d.map (tableRead s.sbox) :=
  List.map_map

/-- The data that INVSUBSEQ responds from one active table (R167). -/
theorem map_commandData_invsubseq (d : List Byte) (s : State) :
    (invsubseq d).map (commandData · s) = d.map (tableRead s.invsbox) :=
  List.map_map

theorem commandEffect_of_mem_sequences {d e : List Byte} {i : Instr}
    (hi : i ∈ subseq d ++ invsubseq e) {s : State} (hv : s.valid = true) :
    commandEffect i s = s := by
  simp only [subseq, invsubseq, List.mem_append, List.mem_map] at hi
  obtain ⟨a, _, rfl⟩ | ⟨a, _, rfl⟩ := hi
  all_goals exact ensureInitialized_of_valid hv

/-- Settles O56: no command of the run has an effect, and each INVSUB looks up, in the inverse table,
what a SUB responded. -/
theorem roundTripWhenBijective : Obligations.RoundTripWhenBijective := by
  intro d s hp hv hbij hpair
  have hback : tableRead s.invsbox ∘ tableRead s.sbox = id := funext fun x => by
    rw [Function.comp_apply, hpair, generateInverse_of_injective hbij.injective, id]
  refine ⟨_, runWords_encode _ s, ?_⟩
  rw [foldl_transacted_of_no_effect _ hp hv fun _ hi _ => commandEffect_of_mem_sequences hi]
  calc s.taken ++ ((subseq d ++ invsubseq (d.map (tableRead s.sbox))).map (commandData · s)).map
        (respWord .ok)
      = s.taken ++ (d.map (tableRead s.sbox) ++ d).map (respWord .ok) := by
        rw [List.map_append, map_commandData_subseq, map_commandData_invsubseq, List.map_map, hback,
          List.map_id]
    _ = _ := by
        rw [List.map_append, List.map_map, List.append_assoc]
        rfl

end Sys2Proof.Machine
end

section
/-! PROOFS. The substitution codec's commands (R161, R163, R165), their sequences (R166, R167), and
INVSUB on what SUB yields from any S-box (R169). -/

namespace Sys2Proof.Machine

/-! ## The emergency initialisation -/

theorem ensureInitialized_sbox (s : State) :
    (ensureInitialized s).sbox = if s.valid then s.sbox else defaultSbox := by
  obtain ⟨hv, e⟩ | ⟨hv, e⟩ := ensureInitialized_eq s <;> simp [e, hv, defaultSbox]

theorem ensureInitialized_invsbox (s : State) :
    (ensureInitialized s).invsbox = if s.valid then s.invsbox else generateInverse defaultSbox := by
  obtain ⟨hv, e⟩ | ⟨hv, e⟩ := ensureInitialized_eq s <;> simp [e, hv, defaultSbox]

/-- What the emergency initialisation leaves, once answered, field by field (R161). -/
theorem respond_ensureInitialized_of_not_valid {s : State} (hv : s.valid = false) (d : Byte) :
    respond .ok d (ensureInitialized s) = { s with
      sbox := defaultSbox
      invsbox := generateInverse defaultSbox
      valid := true
      port := .responding (respWord .ok d) } := by
  rw [ensureInitialized_of_not_valid hv]
  dsimp only [respond, activateDefault, activate, writeValid, replaceTables, defaultSbox]

/-- While VALID is 0, SUB responds an entry of the default S-box and leaves the default pair active
(R163). -/
theorem exec_sub_of_not_valid (a : Byte) {s : State} (hv : s.valid = false) :
    exec (.sub a) s = .next { s with
      sbox := defaultSbox
      invsbox := generateInverse defaultSbox
      valid := true
      port := .responding (respWord .ok (tableRead defaultSbox a)) } := by
  dsimp only [exec, execSub, readSbox]
  rw [respond_ensureInitialized_of_not_valid hv, ensureInitialized_sbox, if_neg (by simp [hv])]

/-- While VALID is 0, INVSUB responds an entry of the default S-box's inverse and leaves the default
pair active (R165). -/
theorem exec_invsub_of_not_valid (a : Byte) {s : State} (hv : s.valid = false) :
    exec (.invsub a) s = .next { s with
      sbox := defaultSbox
      invsbox := generateInverse defaultSbox
      valid := true
      port := .responding (respWord .ok (tableRead (generateInverse defaultSbox) a)) } := by
  dsimp only [exec, execInvsub, readInvsbox]
  rw [respond_ensureInitialized_of_not_valid hv, ensureInitialized_invsbox, if_neg (by simp [hv])]

/-! ## SUB -/

/-- A SUB while VALID is 0 does what INIT would have done (R163). -/
theorem exec_sub_eq_after_init (a : Byte) {s t : State} (hv : s.valid = false)
    (hinit : exec .init s = .next t) : exec (.sub a) s = exec (.sub a) t := by
  obtain ⟨hvalid, _⟩ := init_pair hinit
  obtain ⟨hstate, _⟩ := initActivatesTheDefaultPair
  obtain rfl := Host.Outcome.next.inj ((hstate s).symm.trans hinit)
  rw [exec_sub_of_not_valid a hv, exec_sub_of_valid hvalid rfl, defaultSbox]

/-- The entry of the spec's example (R163, R165). -/
theorem generateSbox_exampleMat_at_48 : tableRead (generateSbox exampleMat 0x63) 0x48 = 0x52 := by
  have hinv : ginv 0x48 = 0xA7 := ginv_eq_of_gmul (by decide)
  rw [tableRead_generateSbox, hinv]
  decide

/-- Settles O23: where VALID is 1 SUB writes only its response, and where it is 0 it writes the
default pair first, as INIT does; its words are the encoder's, and B, ROW and RSV are a field that
its mask keeps whole. -/
theorem subLooksUpTheSbox : Obligations.SubLooksUpTheSbox := by
  refine ⟨fun a s hv => exec_sub_of_valid hv rfl, fun a s hv => exec_sub_of_not_valid a hv,
    fun w => ⟨fun h => ?_, and_mask_of_decode⟩, fun w hop hstray => ?_,
    generateSbox_zero _ Config.defaultConstant, fun a s t hv => exec_sub_eq_after_init a hv,
    decodeOfEncode (.sub 0x48), generateSbox_exampleMat_at_48⟩
  · exact (decode_eq_ok_iff w _).mpr (packWord_of_and_a h)
  · exact decode_of_stray (.sub 0) 8 16 hop rfl hstray

/-! ## INVSUB -/

/-- While VALID is 1, INVSUB responds an entry of the active inverse table (R165). -/
theorem exec_invsub_of_valid {a d : Byte} {s : State} (hv : s.valid = true)
    (h : tableRead s.invsbox a = d) :
    exec (.invsub a) s = .next { s with port := .responding (respWord .ok d) } := by
  subst h
  dsimp only [exec, execInvsub, readInvsbox, respond]
  rw [ensureInitialized_of_valid hv]

/-- An entry of the inverse table is the largest input that the table maps to the value (R143). -/
theorem generateInverse_eq_of_isGreatest {t : Table} {a x : Byte} (hx : tableRead t x = a)
    (hmax : ∀ y, tableRead t y = a → y ≤ x) : tableRead (generateInverse t) a = x := by
  obtain ⟨hvalue, hlast⟩ := isGreatest_generateInverse t x
  rw [hx] at hvalue hlast
  exact BitVec.le_antisymm (hmax _ hvalue) (hlast hx)

/-- Settles O24: where VALID is 1 INVSUB writes only its response, and where it is 0 it writes the
default pair first; under the pair premise the inverse table's laws say which index it responds. Its
words are the encoder's, and B, ROW and RSV are a field that its mask keeps whole. -/
theorem invsubLooksUpTheInverse : Obligations.InvsubLooksUpTheInverse := by
  refine ⟨fun a s hv => exec_invsub_of_valid hv rfl, fun a s hv => exec_invsub_of_not_valid a hv,
    fun w => ⟨fun h => ?_, and_mask_of_decode⟩, fun w hop hstray => ?_,
    fun a s hv hpair hnone => exec_invsub_of_valid hv ?_,
    fun a x s hv hpair hx hmax => exec_invsub_of_valid hv ?_,
    decodeOfEncode (.invsub 0x52), ?_⟩
  · exact (decode_eq_ok_iff w _).mpr (packWord_of_and_a h)
  · exact decode_of_stray (.invsub 0) 8 16 hop rfl hstray
  · rw [hpair]
    exact inverseHoldsTheSentinel s.sbox a hnone
  · rw [hpair]
    exact generateInverse_eq_of_isGreatest hx hmax
  · have hinj := ((sboxBijectiveIffInvertible _ 0x63).mpr isUnit_toMatrix_exampleMat).injective
    rw [← generateSbox_exampleMat_at_48, generateInverse_of_injective hinj]

/-- Settles O57: the inverse table keeps the greatest preimage, and in the table of the zero matrix
that is 0xFF, whatever the input. -/
theorem lossyRoundTrip : Obligations.LossyRoundTrip := by
  refine ⟨fun x s hv hpair => ?_, zeroMat, 0x00, 0x00, ?_⟩
  · obtain ⟨hvalue, hmax⟩ := isGreatest_generateInverse s.sbox x
    exact ⟨_, exec_invsub_of_valid hv (by rw [hpair]), hvalue, fun _ hi => hmax hi⟩
  · have hconst (y : Byte) : tableRead (generateSbox zeroMat 0x00) y = 0x00 := by simp
    rw [generateInverse_of_const hconst, if_pos (hconst _)]
    decide

/-! ## Sequences -/

/-- The emergency initialisation is the first command's alone: the run is the same from the state
already initialised. -/
theorem foldl_transacted_ensureInitialized {i : Instr} (is : List Instr)
    (heffect : ∀ u : State, commandEffect i u = ensureInitialized u) (s : State) :
    (i :: is).foldl transacted s = (i :: is).foldl transacted (ensureInitialized s) := by
  have hfirst : transacted s i = transacted (ensureInitialized s) i := by
    rw [transacted, transacted, heffect, heffect,
      ensureInitialized_of_valid (ensureInitialized_valid s)]
  rw [List.foldl_cons, List.foldl_cons, hfirst]

theorem commandData_withTaken (i : Instr) (s : State) (rs : List Word10) :
    commandData i { s with taken := rs } = commandData i s := by
  cases i <;> rfl

/-- A sequence of one command of the codec over bytes: one OK response for each byte, in order, with
the data that the final state gives, whose tables are those active after the first command. -/
theorem runWords_sequence {op : Byte → Instr}
    (heffect : ∀ (a : Byte) (u : State), commandEffect (op a) u = ensureInitialized u)
    (d : List Byte) {s : State} (hp : s.port = .ready) :
    ∃ t, runWords ((d.map op).map encode) s = .next t ∧
      t.taken = s.taken ++ d.map (fun x => respWord .ok (commandData (op x) t)) ∧
      (d ≠ [] → sameTables (ensureInitialized s) t) := by
  refine ⟨_, runWords_encode _ s, ?_⟩
  cases d with
  | nil => exact ⟨(List.append_nil _).symm, absurd rfl⟩
  | cons a d =>
    have hready : (ensureInitialized s).port = .ready := (ensureInitialized_port s).trans hp
    have hnone : ∀ i ∈ (a :: d).map op, ∀ v : State, v.valid = true → commandEffect i v = v :=
      List.forall_mem_map.mpr fun x _ v hv => (heffect x v).trans (ensureInitialized_of_valid hv)
    rw [List.map_cons, foldl_transacted_ensureInitialized _ (heffect a), ← List.map_cons,
      foldl_transacted_of_no_effect _ hready (ensureInitialized_valid s) hnone]
    refine ⟨?_, fun _ => sameTables_refl (ensureInitialized s)⟩
    simp only [commandData_withTaken, List.map_map, Function.comp_def, ensureInitialized_taken]

/-- Settles O55: both sequences are runs of commands with the emergency initialisation as effect. -/
theorem sequencesLookUpEveryByte : Obligations.SequencesLookUpEveryByte := by
  refine ⟨fun d s hp => ?_, fun d s hp => ?_⟩
  · obtain ⟨t, hrun, htaken, htables⟩ := runWords_sequence (op := .sub) (fun _ _ => rfl) d hp
    refine ⟨t, hrun, htaken, fun hne => ?_⟩
    obtain ⟨hsbox, _, _⟩ := htables hne
    rw [hsbox, ensureInitialized_sbox]
  · obtain ⟨t, hrun, htaken, htables⟩ := runWords_sequence (op := .invsub) (fun _ _ => rfl) d hp
    refine ⟨t, hrun, htaken, fun hne => ?_⟩
    obtain ⟨_, hinvsbox, _⟩ := htables hne
    rw [hinvsbox, ensureInitialized_invsbox]

end Sys2Proof.Machine
end

section
/-! PROOFS. The control commands: NOP (R180) and RDSTAT (R181). -/

namespace Sys2Proof.Machine

/-! ## NOP -/

/-- Settles O12: NOP writes only its response; its word is the encoder's, and its mask keeps the whole
word, so that any other word with its opcode is a mismatch. -/
theorem nopRespondsAndChangesNothing : Obligations.NopRespondsAndChangesNothing := by
  refine ⟨fun s => rfl, fun w => ⟨fun h => ?_, and_mask_of_decode⟩, fun w hop hw => ?_, rfl⟩
  · exact (decode_eq_ok_iff w _).mpr (packWord_of_and_none h)
  · have hmask : w &&& (rowOf .nop).mask = w := BitVec.and_allOnes
    exact decode_of_mismatch (i := .nop) hop (hmask.trans_ne hw)

/-! ## RDSTAT -/

/-- RDSTAT responds STATUS (R181). -/
theorem exec_rdstat {s : State} {d : Byte} (h : statusView s = d) :
    exec .rdstat s = .next { s with port := .responding (respWord .ok d) } := h ▸ rfl

theorem statusView_of_valid {s : State} (hv : s.valid = true) : statusView s = 0x01 := by
  rw [statusView_eq, if_pos hv]

/-- A command whose effect leaves VALID at 1 leaves it at 1 when it is answered. -/
theorem valid_of_exec {i : Instr} {s t : State} (h : exec i s = .next t)
    (hv : (commandEffect i s).valid = true) : t.valid = true := by
  obtain ⟨d, rfl⟩ := eq_respond_of_exec h
  exact hv

/-- BUILD, INIT, SUB and INVSUB leave VALID at 1 (R27). -/
theorem valid_after_activation {s t : State} {a : Byte}
    (h : exec .build s = .next t ∨ exec .init s = .next t ∨ exec (.sub a) s = .next t ∨
      exec (.invsub a) s = .next t) : t.valid = true := by
  obtain hbuild | hinit | hsub | hinvsub := h
  · exact valid_of_exec hbuild (activate_valid s.mat s.const s)
  · exact valid_of_exec hinit (activateDefault_valid s)
  · exact valid_of_exec hsub (ensureInitialized_valid s)
  · exact valid_of_exec hinvsub (ensureInitialized_valid s)

theorem statusView_getLsbD_of_pos (s : State) {k : Nat} (hk : 0 < k) :
    (statusView s).getLsbD k = false := by
  have hbit : ¬ k < 1 := by omega
  rw [statusView, BitVec.getLsbD_append, if_neg hbit, BitVec.getLsbD_zero]

/-- Settles O25: RDSTAT writes only its response, which is VALID in bit 0; VALID is 1 after the four
commands, and the parameter's value after reset. Its word is the encoder's, and all bits below OP are
a field that its mask keeps whole. -/
theorem rdstatReadsTheStatus : Obligations.RdstatReadsTheStatus := by
  refine ⟨fun s => exec_rdstat (statusView_eq s), fun w => ⟨fun h => ?_, and_mask_of_decode⟩,
    fun w hop hstray => ?_,
    fun s t a h => exec_rdstat (statusView_of_valid (valid_after_activation h)),
    exec_rdstat (statusView_eq _), exec_rdstat (statusView_of_valid rfl),
    fun s k => statusView_getLsbD_of_pos s⟩
  · exact (decode_eq_ok_iff w _).mpr (packWord_of_and_none h)
  · exact decode_of_stray .rdstat 0 24 hop rfl hstray

end Sys2Proof.Machine
end

section
/-! PROOFS. The core's one exceptional outcome, the ILLEGAL response: its cause codes (R202, R203), the
trace it does not leave (R201), and that no step ends otherwise than in a next state (R200). -/

namespace Sys2Proof

/-- There are two cause codes (R202). -/
theorem IllegalCause.code_eq (c : IllegalCause) : c.code = 0x01 ∨ c.code = 0x02 := by
  cases c with
  | undefinedOpcode => exact .inl rfl
  | reservedField => exact .inr rfl

end Sys2Proof

namespace Sys2Proof.Machine

/-! ## The response word -/

@[simp] theorem extractLsb'_respWord_status (st : Status) (d : Byte) :
    (respWord st d).extractLsb' 8 2 = st.code :=
  BitVec.extractLsb'_append_eq_left

@[simp] theorem extractLsb'_respWord_data (st : Status) (d : Byte) :
    (respWord st d).extractLsb' 0 8 = d :=
  BitVec.extractLsb'_append_eq_right

theorem Status.code_injective : Function.Injective Status.code := by
  intro st st'
  cases st <;> cases st' <;> decide

/-- ST and DATA are separate fields of a response (R66). -/
theorem respWord_inj {st st' : Status} {d d' : Byte} :
    respWord st d = respWord st' d' ↔ st = st' ∧ d = d' := by
  refine ⟨fun h => ⟨Status.code_injective ?_, ?_⟩, fun ⟨hst, hd⟩ => hst ▸ hd ▸ rfl⟩
  · simpa using congrArg (BitVec.extractLsb' 8 2) h
  · simpa using congrArg (BitVec.extractLsb' 0 8) h

/-! ## The cause codes -/

/-- An ILLEGAL response answers a word that the decoder rejects, with the cause of the rejection: a
command answers OK (R200). -/
theorem decode_eq_error_of_response {w : Word32} {s t : State} {d : Byte}
    (h : executeWord w s = .next t) (ht : t.port = .responding (respWord .illegal d)) :
    ∃ c : IllegalCause, decode w = .error c ∧ d = c.code := by
  obtain ⟨i, -, e⟩ | ⟨c, hc, e⟩ := executeWord_cases w s <;> rw [e] at h
  · obtain ⟨d', rfl⟩ := eq_respond_of_exec h
    cases (respWord_inj.mp (Port.responding.inj ht)).1
  · cases h
    exact ⟨c, hc, (respWord_inj.mp (Port.responding.inj ht)).2.symm⟩

/-- Settles O7: the decoder tests the opcode first and the fixed bits of its row second, and only a
word that it rejects is answered ILLEGAL. -/
theorem causeCodesAndPriority : Obligations.CauseCodesAndPriority := by
  refine ⟨fun w s hop => ?_, fun w s hop hlegal => ?_, fun w s t d h ht => ?_⟩
  · exact executeWord_of_error (decode_of_undefined hop) s
  · exact executeWord_of_error (decode_of_not_legal hop hlegal) s
  · obtain ⟨c, -, rfl⟩ := decode_eq_error_of_response h ht
    exact c.code_eq

/-! ## No trace -/

/-- Once the response to an illegal word is taken, it is all that is left of the word (R201). -/
theorem takeResponse_raiseIllegal {s : State} (hp : s.port = .ready) (c : IllegalCause)
    (r : Word10) :
    takeResponse r (raiseIllegal c s) = { s with taken := s.taken ++ [r] } := by
  simp [takeResponse, raiseIllegal, respond, ← hp]

/-- Settles O9: the first edge answers the word ILLEGAL, and the second takes that response. -/
theorem illegalCommandLeavesNoTrace : Obligations.IllegalCommandLeavesNoTrace := by
  intro s w cause rest hport hhost hdecode
  have haccept : step s = .next (raiseIllegal cause { s with host := .take :: rest }) :=
    (step_of_command hhost hport).trans (executeWord_of_error hdecode _)
  have hclear := takeResponse_raiseIllegal (s := { s with host := rest }) hport cause
    (respWord .illegal cause.code)
  exact ⟨_, haccept, (step_of_take rfl rfl).trans (congrArg Host.Outcome.next hclear)⟩

/-! ## Every step answers a next state -/

/-- An edge answers a next state: an accepted word is answered by a response, legal or not, and at
any other edge nothing is executed (R200, R201). -/
theorem clockEdgeWith_answers (auto : Bool) (s : State) : ∃ t, clockEdgeWith auto s = .next t := by
  obtain ⟨rest, -, e⟩ | ⟨-, -, e⟩ | ⟨w, rest, -, -, e⟩ | ⟨r, rest, -, -, e⟩ | ⟨-, -, -, -, e⟩ :=
    clockEdgeWith_cases auto s
  · exact ⟨_, e⟩
  · exact ⟨_, e⟩
  · obtain ⟨t, r, h, -⟩ := executeWord_response w { s with host := rest }
    exact ⟨t, e.trans h⟩
  · exact ⟨_, e⟩
  · exact ⟨_, e⟩

/-- Settles O45: a step is an edge, and every edge answers a next state. -/
theorem everyStepAnswersNext : Obligations.EveryStepAnswersNext := fun s =>
  ⟨clockEdgeWith_answers true s, fun auto => clockEdgeWith_answers auto s⟩

end Sys2Proof.Machine
end

section
/-! PROOFS. The rising edge with `rst = 1` (R240). -/

namespace Sys2Proof.Machine

theorem rst_eq_true_iff (s : State) : rst s = true ↔ ∃ rest, s.host = .reset :: rest := by
  simp [rst, List.head?_eq_some_iff]

/-- In reset the core accepts no command. -/
@[simp] theorem cmdReady_assertReset (s : State) : cmdReady (assertReset s) = false := rfl

/-- In reset no response is pending, whatever command was outstanding. -/
@[simp] theorem rspOffered_assertReset (s : State) : rspOffered (assertReset s) = none := rfl

/-- Settles O41: whatever the port is doing, the edge is the assertion of reset, which loads MAT and
CONST, clears VALID, puts the port in reset and does not touch the responses taken. -/
theorem resetAssertionAbandonsTheCommand : Obligations.ResetAssertionAbandonsTheCommand := by
  intro s hrst
  obtain ⟨rest, hhost⟩ := (rst_eq_true_iff s).mp hrst
  have hmat (r : Fin 8) :
      (assertReset { s with host := rest }).mat[r] = Config.defaultMatrix[r] := by
    rw [assertReset_mat]
  exact ⟨_, step_of_reset hhost, hmat, assertReset_const _, assertReset_valid _,
    cmdReady_assertReset _, rspOffered_assertReset _, assertReset_taken _⟩

end Sys2Proof.Machine
end
